-- ==== Sys2Proof/Word.lean ====
section
/-! DEFINITION. The bit-vector types of the controller: what the spec treats as bits. -/

namespace Sys2Proof

/-- Eight bits: port bytes, parameter registers, parameter RAM (R17, R18, R42). -/
abbrev Byte := BitVec 8

/-- Sixteen bits: a display-memory word and the MASK register (R5 `MASK_BITS`, R44). -/
abbrev Word := BitVec 16

/-- Eighteen bits: a display-memory word address (R5 `EAD_BITS`, R26). -/
abbrev VAddr := BitVec 18

/-- Fourteen bits: the DC, D, D2, D1 and DM figure parameters (R27). -/
abbrev FigCount := BitVec 14

end Sys2Proof
end

