-- ==== Sys2Proof/Syntax.lean ====
section
/-! DEFINITION. The 20 commands of R66, one constructor a row of the opcode table, with the operand
fields of the command byte (R61) as constructor arguments, and a command with its parameter bytes (R60). -/

namespace Sys2Proof

/-- The transfer type, opcode field `t` (R61, R28), in the order of its codes 0 to 3. -/
inductive XferType where
  /-- 0: low byte then high byte. -/
  | word
  /-- 1: invalid (R68 (a)). -/
  | invalid
  /-- 2: the low byte of the word. -/
  | lowByte
  /-- 3: the high byte of the word. -/
  | highByte
  deriving DecidableEq, Repr

/-- The modify mode, opcode field `m` (R61, R28), in the order of its codes 0 to 3. -/
inductive ModMode where
  /-- 0: replace. -/
  | replace
  /-- 1: complement. -/
  | complement
  /-- 2: reset to 0. -/
  | reset
  /-- 3: set to 1. -/
  | set
  deriving DecidableEq, Repr

/-- The command names of R66, in the table's order. -/
inductive Mnemonic where
  | reset | sync | vsync | cchar | start | bctrl | zoom | pitch
  | curs | pram | mask | figs
  | wdat | rdat | figd | gchrd | dmar | dmaw
  | curd | lprd
  deriving DecidableEq, Repr

/-- The commands: one constructor a row of the opcode table (R66). The arguments are the command byte's
operand fields (R61); the parameter bytes arrive one by one and stand in `pr` (R17). -/
inductive Instr where
  /-- RESET, R110. -/
  | reset
  /-- SYNC, R111; `f` is the display-enable value. -/
  | sync (f : Bool)
  /-- VSYNC, R114; `f` is 1 for master, 0 for slave. -/
  | vsync (f : Bool)
  /-- CCHAR, R115. -/
  | cchar
  /-- START, R116. -/
  | start
  /-- BCTRL, R117; `f` is the display-enable value. -/
  | bctrl (f : Bool)
  /-- ZOOM, R118. -/
  | zoom
  /-- PITCH, R119. -/
  | pitch
  /-- CURS, R130. -/
  | curs
  /-- PRAM, R133; `n` is the start index. -/
  | pram (n : BitVec 4)
  /-- MASK, R135. -/
  | mask
  /-- FIGS, R136. -/
  | figs
  /-- WDAT, R155. -/
  | wdat (t : XferType) (m : ModMode)
  /-- RDAT, R158. -/
  | rdat (t : XferType) (m : ModMode)
  /-- FIGD, R160. -/
  | figd
  /-- GCHRD, R162. -/
  | gchrd
  /-- DMAR, R165. -/
  | dmar (t : XferType) (m : ModMode)
  /-- DMAW, R166. -/
  | dmaw (t : XferType) (m : ModMode)
  /-- CURD, R180. -/
  | curd
  /-- LPRD, R182. -/
  | lprd
  deriving DecidableEq, Repr

/-- The command name of an instruction (R66). -/
def Instr.mnemonic : Instr → Mnemonic
  | .reset    => .reset
  | .sync _   => .sync
  | .vsync _  => .vsync
  | .cchar    => .cchar
  | .start    => .start
  | .bctrl _  => .bctrl
  | .zoom     => .zoom
  | .pitch    => .pitch
  | .curs     => .curs
  | .pram _   => .pram
  | .mask     => .mask
  | .figs     => .figs
  | .wdat _ _ => .wdat
  | .rdat _ _ => .rdat
  | .figd     => .figd
  | .gchrd    => .gchrd
  | .dmar _ _ => .dmar
  | .dmaw _ _ => .dmaw
  | .curd     => .curd
  | .lprd     => .lprd

/-- The arity classes of R63. -/
inductive Arity where
  /-- Applied when the command byte is dispatched. -/
  | immediate
  /-- Applied at once; `n` optional parameter bytes may follow (RESET). -/
  | immediatePlus (n : Nat)
  /-- Applied once, when the n-th parameter byte arrives. -/
  | fixed (n : Nat)
  /-- Applied each time `g` parameter bytes have arrived, without end. -/
  | streaming (g : Nat)
  /-- Groups ending at parameter 1, 3, 5, ..., n (FIGS). -/
  | progressive (n : Nat)
  deriving DecidableEq, Repr

/-- The arity class of every command (R63). WDAT with the invalid transfer type takes no parameter (R68 (a)). -/
def Instr.arity : Instr → Arity
  | .reset           => .immediatePlus 8
  | .sync _          => .fixed 8
  | .vsync _         => .immediate
  | .cchar           => .fixed 3
  | .start           => .immediate
  | .bctrl _         => .immediate
  | .zoom            => .fixed 1
  | .pitch           => .fixed 1
  | .curs            => .fixed 4
  | .pram _          => .streaming 1
  | .mask            => .fixed 2
  | .figs            => .progressive 11
  | .wdat .word _    => .streaming 2
  | .wdat .invalid _ => .immediate
  | .wdat .lowByte _ => .streaming 1
  | .wdat .highByte _ => .streaming 1
  | .rdat _ _        => .immediate
  | .figd            => .immediate
  | .gchrd           => .immediate
  | .dmar _ _        => .immediate
  | .dmaw _ _        => .immediate
  | .curd            => .immediate
  | .lprd            => .immediate

/-- A command as the host sends it: one command byte, then parameter bytes (R60). -/
structure Command where
  instr  : Instr
  params : List Byte
  deriving DecidableEq, Repr

end Sys2Proof
end

