-- ==== Sys2Proof/WellFormed.lean ====
section
/-! DEFINITION. Which commands are well formed: every field of an `Instr` is a value its encoding admits by
its type, so the checks are on what the types leave open, the transfer type (R68) and the number of
parameter bytes (R63, R66). -/

namespace Sys2Proof

/-- The command byte carries no reserved operand value: R68 (a), transfer type 1 of WDAT and RDAT is invalid.
In DMAR and DMAW type 1 is latched like any other value. -/
def Instr.operandsValid : Instr → Bool
  | .wdat t _ => t != .invalid
  | .rdat t _ => t != .invalid
  | _ => true

/-- `n` parameter bytes are whole groups of the arity class (R63): nothing is left unapplied and nothing is
stray. -/
def Arity.admits : Arity → Nat → Bool
  | .immediate, n       => n == 0
  | .immediatePlus k, n => n == 0 || n == k
  | .fixed k, n         => n == k
  | .streaming g, n     => n % g == 0
  | .progressive k, n   => n == 0 || (n % 2 == 1 && decide (n ≤ k))

/-- A command is well formed when its operands are valid and its parameter bytes are whole groups. -/
def Command.wellFormed (c : Command) : Bool :=
  c.instr.operandsValid && c.instr.arity.admits c.params.length

end Sys2Proof
end

