-- ==== Sys2Proof/Decode.lean ====
section
/-! DEFINITION. Decoding of command bytes from the opcode table of R66 (mask and match), and the encoder
written from the formats of R61. -/

namespace Sys2Proof

/-- Why a byte is not a command (R67): it matches no row of the table. -/
inductive DecodeError where
  | invalid (b : Byte)
  deriving DecidableEq, Repr

/-- One row of the opcode table (R62, R66): `b &&& mask = pattern`. -/
structure OpRow where
  name    : Mnemonic
  mask    : Byte
  pattern : Byte
  deriving DecidableEq, Repr

/-- The complete command set, in the order of R66 (most values PRESUMED by the spec, log 16). -/
def opTable : List OpRow :=
  [ ⟨.reset, 0xFF#8, 0x00#8⟩,
    ⟨.sync,  0xFE#8, 0x0E#8⟩,
    ⟨.vsync, 0xFE#8, 0x6E#8⟩,
    ⟨.cchar, 0xFF#8, 0x4B#8⟩,
    ⟨.start, 0xFF#8, 0x6B#8⟩,
    ⟨.bctrl, 0xFE#8, 0x0C#8⟩,
    ⟨.zoom,  0xFF#8, 0x46#8⟩,
    ⟨.pitch, 0xFF#8, 0x47#8⟩,
    ⟨.curs,  0xFF#8, 0x49#8⟩,
    ⟨.pram,  0xF0#8, 0x70#8⟩,
    ⟨.mask,  0xFF#8, 0x4A#8⟩,
    ⟨.figs,  0xFF#8, 0x4C#8⟩,
    ⟨.wdat,  0xE4#8, 0x20#8⟩,
    ⟨.rdat,  0xE4#8, 0xA0#8⟩,
    ⟨.figd,  0xFF#8, 0x6C#8⟩,
    ⟨.gchrd, 0xFF#8, 0x68#8⟩,
    ⟨.dmar,  0xE4#8, 0xA4#8⟩,
    ⟨.dmaw,  0xE4#8, 0x24#8⟩,
    ⟨.curd,  0xFF#8, 0xE0#8⟩,
    ⟨.lprd,  0xFF#8, 0xC0#8⟩ ]

/-- The byte matches the row (R62). -/
def OpRow.matchesByte (r : OpRow) (b : Byte) : Bool := b &&& r.mask == r.pattern

/-- Field `f`, bit 0 (format F of R61). -/
def flagField (b : Byte) : Bool := b.getLsbD 0

/-- Field `n`, bits 3:0 (format N of R61). -/
def nibbleField (b : Byte) : BitVec 4 := b.extractLsb' 0 4

/-- The transfer type of a two-bit code (R61, R28). -/
def XferType.ofBits (v : BitVec 2) : XferType :=
  if v = 0#2 then .word else if v = 1#2 then .invalid else if v = 2#2 then .lowByte else .highByte

/-- The two-bit code of a transfer type (R61, R28). -/
def XferType.toBits : XferType → BitVec 2
  | .word => 0#2
  | .invalid => 1#2
  | .lowByte => 2#2
  | .highByte => 3#2

/-- The modify mode of a two-bit code (R61, R28). -/
def ModMode.ofBits (v : BitVec 2) : ModMode :=
  if v = 0#2 then .replace else if v = 1#2 then .complement else if v = 2#2 then .reset else .set

/-- The two-bit code of a modify mode (R61, R28). -/
def ModMode.toBits : ModMode → BitVec 2
  | .replace => 0#2
  | .complement => 1#2
  | .reset => 2#2
  | .set => 3#2

/-- Field `t`, bits 4:3 (format T of R61). -/
def typeField (b : Byte) : XferType := .ofBits (b.extractLsb' 3 2)

/-- Field `m`, bits 1:0 (format T of R61). -/
def modeField (b : Byte) : ModMode := .ofBits (b.extractLsb' 0 2)

/-- The instruction a command name and a command byte stand for: the name with the operand fields its
format takes from the byte (R61; DEDUCED, log 21, safe). -/
def instrOf (name : Mnemonic) (b : Byte) : Instr :=
  match name with
  | .reset => .reset
  | .sync  => .sync (flagField b)
  | .vsync => .vsync (flagField b)
  | .cchar => .cchar
  | .start => .start
  | .bctrl => .bctrl (flagField b)
  | .zoom  => .zoom
  | .pitch => .pitch
  | .curs  => .curs
  | .pram  => .pram (nibbleField b)
  | .mask  => .mask
  | .figs  => .figs
  | .wdat  => .wdat (typeField b) (modeField b)
  | .rdat  => .rdat (typeField b) (modeField b)
  | .figd  => .figd
  | .gchrd => .gchrd
  | .dmar  => .dmar (typeField b) (modeField b)
  | .dmaw  => .dmaw (typeField b) (modeField b)
  | .curd  => .curd
  | .lprd  => .lprd

/-- `Decode(b)` of R62: the first row that matches, or an error naming the byte (the spec's `INVALID`, R67). -/
def decode (b : Byte) : Except DecodeError Instr :=
  match opTable.find? (fun r => r.matchesByte b) with
  | some r => .ok (instrOf r.name b)
  | none => .error (.invalid b)

/-- The command byte of an instruction, written from the formats of R61 and the values of R66, bit 7 leftmost. -/
def encode : Instr → Byte
  | .reset    => 0x00#8
  | .sync f   => 0b0000111#7 ++ BitVec.ofBool f
  | .vsync f  => 0b0110111#7 ++ BitVec.ofBool f
  | .cchar    => 0x4B#8
  | .start    => 0x6B#8
  | .bctrl f  => 0b0000110#7 ++ BitVec.ofBool f
  | .zoom     => 0x46#8
  | .pitch    => 0x47#8
  | .curs     => 0x49#8
  | .pram n   => 0x7#4 ++ n
  | .mask     => 0x4A#8
  | .figs     => 0x4C#8
  | .wdat t m => 0b001#3 ++ t.toBits ++ 0#1 ++ m.toBits
  | .rdat t m => 0b101#3 ++ t.toBits ++ 0#1 ++ m.toBits
  | .figd     => 0x6C#8
  | .gchrd    => 0x68#8
  | .dmar t m => 0b101#3 ++ t.toBits ++ 1#1 ++ m.toBits
  | .dmaw t m => 0b001#3 ++ t.toBits ++ 1#1 ++ m.toBits
  | .curd     => 0xE0#8
  | .lprd     => 0xC0#8

/-- The command byte that the table's numbering gives: bits 7:0 of `w`, of which only the low `nbits` are the
row's (an instruction is one command byte, R60, so no longer word exists). -/
def tableByte (nbits w : Nat) : Byte := BitVec.ofNat 8 (w % 2 ^ nbits)

/-- The instruction this decoder reads from the table's word `w` of `nbits` bits. -/
def decodeTableWord (nbits w : Nat) : Option Instr :=
  match decode (tableByte nbits w) with
  | .ok i => some i
  | .error _ => none

end Sys2Proof
end

