-- ==== Sys2Proof/Config.lean ====
section
/-! DEFINITION. What an implementation fixes: the parameters of R5 as plain data, and the free values
that the spec leaves open as constants without a body. -/

namespace Sys2Proof

/-- `FIFO_DEPTH` (R5, R11): the greatest number of queued entries. -/
def fifoDepth : Nat := 16

/-- `PORT_MAP` (R41): which port offsets exist and what each does. -/
inductive PortMap where
  /-- Two offsets: status/parameter at 0, FIFO data/command at 1. -/
  | a0
  /-- Three offsets: status at 0, data/parameter at 1, data/command at 2. -/
  | threePort
  deriving DecidableEq, Repr

/-- `OPEN_BUS_VALUE` (R88, U5): the byte of a data-port read that dequeues nothing. -/
inductive OpenBus where
  /-- Always this byte. -/
  | fixed (b : Byte)
  /-- A free draw at every such read. -/
  | free
  deriving DecidableEq, Repr

/-- `FIGD_POLICY` (R160, U10). -/
inductive FigdPolicy where
  /-- What FIGD draws and leaves in the registers it would use is unspecified. -/
  | refuse
  /-- FIGD changes nothing further. -/
  | stub
  deriving DecidableEq, Repr

/-- `CURD_DAD_BYTES` (R180, U15): how many dot-address bytes CURD returns. -/
inductive CurdDadBytes where
  | one
  | two
  deriving DecidableEq, Repr

/-- What RDAT with the invalid transfer type does to the FIFO direction, on which the rules disagree (log 18). -/
inductive RdatInvalid where
  /-- R158, R68, V38: nothing. -/
  | keepsDirection
  /-- R252 (e): the FIFO has been turned to READ and is empty. -/
  | turnsToRead
  deriving DecidableEq, Repr

/-- `RAW_ATTR` (R200, U16): where the raw attributes of a cell come from. -/
inductive RawAttrSource where
  /-- The default derivation of R200, from display-enable and the cursor. -/
  | standard
  /-- Some other function of controller state and the cell; the model leaves it free. -/
  | replaced
  deriving DecidableEq, Repr

/-- The parameters of R5, fixed for the life of an instance (R266). DESIGN CHOICE (log 3, safe): they are a
field of `State` that no step changes, so that every statement holds for every value of them. -/
structure Config where
  portMap      : PortMap
  /-- The last word address of display memory: `VRAM_WORDS - 1`, so that `VRAM_WORDS` is 1 to 2^18 (R5, R45). -/
  vramLast     : VAddr
  openBus      : OpenBus
  figdPolicy   : FigdPolicy
  curdDadBytes : CurdDadBytes
  rawAttr      : RawAttrSource
  /-- `RESET_RA3` (R110): what RESET writes to `ra[3]`. -/
  resetRa3     : Byte
  /-- `PR_SIZE - 12`, so that `PR_SIZE` is at least 12: the rules write `pr[0..11]` (R17, R92; DEDUCED, log 20). -/
  prBeyond     : Nat
  /-- DESIGN CHOICE (log 18, safe): not a parameter of R5, but two readings of the rules, both kept. -/
  rdatInvalid  : RdatInvalid
  deriving DecidableEq, Repr

/-- `VRAM_WORDS` (R45), at least 1 by construction. -/
def Config.vramWords (c : Config) : Nat := c.vramLast.toNat + 1

/-- `PR_SIZE` (R5): how many parameter registers there are. -/
def Config.prSize (c : Config) : Nat := 12 + c.prBeyond

/-- The default value of every parameter of R5. DESIGN CHOICE of the spec (log 3, log 7); R158's reading of an invalid
RDAT (log 18). -/
def Config.default : Config where
  portMap      := .a0
  vramLast     := 0x3FFFF#18
  openBus      := .fixed 0xFF#8
  figdPolicy   := .refuse
  curdDadBytes := .two
  rawAttr      := .standard
  resetRa3     := 0x19#8
  prBeyond     := 4
  rdatInvalid  := .keepsDirection

/-- What FIGD leaves unspecified under `FIGD_POLICY = REFUSE` (R160): the words it writes to display memory,
in order, and the eight registers the rule names. -/
structure FigdOutcome where
  writes : List (VAddr × Word)
  ead    : VAddr
  dad    : BitVec 4
  mask   : Word
  dc     : FigCount
  d      : FigCount
  d2     : FigCount
  d1     : FigCount
  dm     : FigCount
  deriving DecidableEq, Repr, Inhabited

/-- FREE VALUE (R160, U10; DESIGN CHOICE, log 8, safe): the unspecified outcome of the n-th free draw. -/
opaque Config.freeFigd : Nat → FigdOutcome

/-- FREE VALUE (R88, U5; DESIGN CHOICE, log 7, safe): the open-bus byte of the n-th free draw. -/
opaque Config.freeOpenBus : Nat → Byte

end Sys2Proof
end

