-- ==== Sys2Proof/Machine/State.lean ====
section
/-! DEFINITION. The state of one controller (R10 to R29), the display memory and output streams a model keeps
beside it (R30, R31), the pending events (R8), and the state at creation (R32). -/

namespace Sys2Proof.Machine

/-- No step of this machine faults: "all error conditions are recovered locally within the controller" (R255),
and no access faults (R45, R251). There is no constructor, so no step can answer with a fault (safe). -/
inductive Fault where
  deriving DecidableEq, Repr

/-- Reasons a step has no meaning. -/
inductive Refusal where
  /-- Raised by an arm of `exec` whose instruction has no meaning yet. Every arm has one, so nothing raises it
  (safe: a refusal proves nothing about the hardware). -/
  | notModelled (mnemonic : String)
  deriving DecidableEq, Repr

/-- The outcome of a step or of a meaning. -/
abbrev Result (σ : Type) := Host.Outcome σ Fault Refusal

/-! ## Pieces of the state -/

/-- One FIFO entry (R11). -/
structure FifoEntry where
  byte      : Byte
  isCommand : Bool
  deriving DecidableEq, Repr

/-- The FIFO direction (R12). -/
inductive FifoDir where
  /-- The host supplies data. -/
  | write
  /-- The controller supplies result bytes. -/
  | read
  deriving DecidableEq, Repr

/-- `cmd` (R16): the decoded identity of the command register. -/
inductive Cmd where
  /-- No command byte has been dispatched since creation. -/
  | none
  /-- The byte matched no row of the table. -/
  | invalid
  /-- The byte is a command of this name. -/
  | command (name : Mnemonic)
  deriving DecidableEq, Repr

/-- `phase` (R16, R90). -/
inductive Phase where
  | idle
  | await
  deriving DecidableEq, Repr

/-- The dispatcher (R15 to R18, R28). -/
structure Dispatcher where
  /-- The command register (R15). -/
  cr     : Byte
  cmd    : Cmd
  phase  : Phase
  /-- How many parameter bytes `pr[1..pcount]` hold (R16). -/
  pcount : BitVec 4
  /-- The parameter registers (R17): `pr[0]` the command byte, `pr[k]` the k-th parameter; `PR_SIZE` of them
  (R5). -/
  pr     : List Byte
  /-- The PRAM write pointer, 16 past the end (R18). -/
  raPtr  : BitVec 5
  xtype  : XferType
  mod    : ModMode
  deriving DecidableEq, Repr

/-- The mode byte and the geometry fields (R20, R21). -/
structure Geometry where
  mode : Byte
  aw   : BitVec 9
  hs   : BitVec 6
  vs   : BitVec 5
  hfp  : BitVec 7
  hbp  : BitVec 7
  vfp  : BitVec 6
  vbp  : BitVec 6
  al   : BitVec 10
  deriving DecidableEq, Repr

/-- The cursor fields (R24). -/
structure CursorRegs where
  lr   : BitVec 6
  dc   : Bool
  ctop : BitVec 5
  cbot : BitVec 5
  sc   : Bool
  br   : BitVec 5
  deriving DecidableEq, Repr

/-- The zoom fields (R25): the stored values are the factors. -/
structure ZoomRegs where
  disp : BitVec 5
  gchr : BitVec 5
  deriving DecidableEq, Repr

/-- The addressing fields that `AdvanceEAD` moves together (R26, R150). -/
structure AddrRegs where
  ead  : VAddr
  dad  : BitVec 4
  mask : Word
  deriving DecidableEq, Repr

/-- The figure-drawing registers (R27). -/
structure FigureRegs where
  dir  : BitVec 3
  type : BitVec 5
  dc   : FigCount
  gd   : Bool
  d    : FigCount
  d2   : FigCount
  d1   : FigCount
  dm   : FigCount
  deriving DecidableEq, Repr

/-- The timing generator (R29), but for `drq`. -/
structure Raster where
  hnext      : BitVec 9
  vnext      : BitVec 11
  vwait      : Bool
  hsyncLevel : Bool
  blinkCtr   : BitVec 6
  deriving DecidableEq, Repr

/-! ## Output streams (R30) -/

/-- The log codes of R250. -/
inductive LogCode where
  | fifoOverflow
  | unknownOpcode
  | paramUnderrun
  | strayParam
  | invalidType
  | configClamp
  | unspecifiedFigd
  | badPort
  deriving DecidableEq, Repr

/-- One log entry (R250). -/
structure LogEntry where
  code : LogCode
  info : Byte
  deriving DecidableEq, Repr

/-- The names `line_callback` can carry (R7, R256). INT is never driven (log 19). -/
inductive LineName where
  | drq
  | int
  | hsync
  | vsync
  | blank
  deriving DecidableEq, Repr

/-- One line event `Line(name, level)` (R7, R30). -/
structure LineEvent where
  name  : LineName
  level : Bool
  deriving DecidableEq, Repr

/-- One display-pixel callback with its ten arguments (R198). -/
structure Pixel where
  x         : Nat
  y         : Nat
  linecount : Nat
  charcode  : Word
  la        : BitVec 2
  lten      : Bool
  rvv       : Bool
  vsp       : Bool
  gpa       : BitVec 2
  hlgt      : Bool
  deriving DecidableEq, Repr

/-- The output streams (R30), each oldest first, and the byte each port read returned. The streams are ordered
each within itself and not against one another (R258 (e); log 12, log 24). -/
structure Outputs where
  log    : List LogEntry
  lines  : List LineEvent
  pixels : List Pixel
  reads  : List Byte
  deriving DecidableEq, Repr

/-! ## Events (R8) -/

/-- What can happen to the controller: each event is one atomic, run-to-completion step (R8). -/
inductive Event where
  /-- `PortWrite(offset, b)`, by the host (R85). -/
  | portWrite (offset : Nat) (b : Byte)
  /-- `PortRead(offset)`, by the host (R87, R88). -/
  | portRead (offset : Nat)
  /-- `Tick`, one word clock (R224). -/
  | tick
  /-- `RenderLine(y)`, by the host (R197). -/
  | renderLine (y : Nat)
  /-- `RenderFrame`, by the host (R203). -/
  | renderFrame
  /-- `ExtVsync`, the external vsync line pulses (R229). -/
  | extVsync
  /-- `LightPenDetect(a)` (R183). -/
  | lightPen (a : VAddr)
  /-- `DmaEnd`, from the external DMA controller (R167). -/
  | dmaEnd
  /-- Another agent stores a word of the shared display memory between two controller events (R53, R294; DESIGN CHOICE,
  log 13, safe). -/
  | memStore (a : VAddr) (v : Word)
  deriving DecidableEq, Repr

/-- Display memory as (byte address, byte) pairs; word `a` is the bytes `2a` (low) and `2a + 1` (high).
DESIGN CHOICE (log 6, safe): display memory has no byte order of its own (R43). -/
abbrev Memory := List Host.Cell

/-! ## The state -/

/-- The whole machine: the controller's state (R10), the display memory and outputs (R30, R31), and the model's
own fields. -/
structure State where
  /-- The FIFO, oldest entry first (R11). -/
  fifo     : List FifoEntry
  fifoDir  : FifoDir
  /-- The status register `SR` (R13). -/
  sr       : Byte
  disp     : Dispatcher
  geom     : Geometry
  pitch    : Byte
  /-- Display enable (R23). -/
  de       : Bool
  /-- Master (1) or slave (0) vertical timing (R23). -/
  master   : Bool
  cursor   : CursorRegs
  zoom     : ZoomRegs
  addr     : AddrRegs
  /-- The light-pen address (R26). -/
  lad      : VAddr
  /-- The parameter RAM (R18). -/
  ra       : Vector Byte 16
  fig      : FigureRegs
  raster   : Raster
  /-- The level of the DRQ line (R29). -/
  drq      : Bool
  /-- The external display memory (R31, R44). -/
  mem      : Memory
  out      : Outputs
  /-- The parameters of R5. No step changes them. -/
  cfg      : Config
  /-- The model's own: the events that are to happen, the next one first (R8, log 2). -/
  events   : List Event
  /-- The model's own: the number of free values drawn so far (log 9). -/
  freeCount : Nat
  /-- The model's own: the run dispatched FIGD under `FIGD_POLICY = REFUSE`; "a model marks the run as refused"
  (R160, log 8). -/
  runRefused : Bool
  deriving DecidableEq, Repr

/-- The state at creation (R32, R281): the spec's own choice of values (log 4), default parameters (log 3),
no event pending (log 2). -/
def State.reset : State where
  fifo    := []
  fifoDir := .write
  sr      := 0x04#8
  disp    :=
    { cr := 0#8, cmd := .none, phase := .idle, pcount := 0#4, pr := List.replicate Config.default.prSize 0#8,
      raPtr := 0#5, xtype := .word, mod := .replace }
  geom    :=
    { mode := 0#8, aw := 0#9, hs := 0#6, vs := 0#5, hfp := 0#7, hbp := 0#7, vfp := 0#6, vbp := 0#6, al := 0#10 }
  pitch   := 0#8
  de      := false
  master  := true
  cursor  := { lr := 1#6, dc := false, ctop := 0#5, cbot := 0#5, sc := false, br := 0#5 }
  zoom    := { disp := 1#5, gchr := 1#5 }
  addr    := { ead := 0#18, dad := 0#4, mask := 0#16 }
  lad     := 0#18
  ra      := Vector.replicate 16 0#8
  fig     :=
    { dir := 0#3, type := 0#5, dc := 0#14, gd := false, d := 0#14, d2 := 0#14, d1 := 0#14, dm := 0#14 }
  raster  := { hnext := 0#9, vnext := 0#11, vwait := false, hsyncLevel := false, blinkCtr := 0#6 }
  drq     := false
  mem     := []
  out     := { log := [], lines := [], pixels := [], reads := [] }
  cfg     := Config.default
  events  := []
  freeCount := 0
  runRefused := false

end Sys2Proof.Machine
end

