-- ==== Sys2Proof/Machine/Flags.lean ====
section
/-! DEFINITION. The status register's bits (R13): their places, reading one, writing one. -/

namespace Sys2Proof.Machine

/-- The fields of `SR` (R13). -/
inductive StatusBit where
  /-- Data-ready. -/
  | dr
  /-- FIFO-full. -/
  | ff
  /-- FIFO-empty. -/
  | fe
  /-- Drawing-in-progress, never observed 1 (R157). -/
  | dip
  /-- DMA-execute. -/
  | dma
  /-- Vsync-active. -/
  | vsy
  /-- Hblank-active. -/
  | hbl
  /-- Light-pen-detect. -/
  | lpd
  deriving DecidableEq, Repr

/-- The bit number of a field of `SR` (R13). -/
def StatusBit.index : StatusBit → Nat
  | .dr => 0
  | .ff => 1
  | .fe => 2
  | .dip => 3
  | .dma => 4
  | .vsy => 5
  | .hbl => 6
  | .lpd => 7

/-- The value of a field of a status byte. -/
def statusGet (sr : Byte) (b : StatusBit) : Bool := sr.getLsbD b.index

/-- The status byte with one field written, every other field kept. -/
def statusPut (sr : Byte) (b : StatusBit) (v : Bool) : Byte :=
  if v then sr ||| (1#8 <<< b.index) else sr &&& ~~~(1#8 <<< b.index)

/-- `SR.X` (R7). -/
def State.status (s : State) (b : StatusBit) : Bool := statusGet s.sr b

/-- `SR.X <- v` (R7). -/
def State.setStatus (s : State) (b : StatusBit) (v : Bool) : State := { s with sr := statusPut s.sr b v }

/-- The status bits after an entry was appended (R80): FE cleared, FF set when the queue now holds 16, DR set
when the direction is READ. -/
def statusAfterEnqueue (sr : Byte) (depth : Nat) (dir : FifoDir) : Byte :=
  let sr := statusPut sr .fe false
  let sr := if depth = fifoDepth then statusPut sr .ff true else sr
  if dir = .read then statusPut sr .dr true else sr

/-- The status bits after an entry was removed (R81): FF cleared; FE set and DR cleared when the queue is now
empty. -/
def statusAfterDequeue (sr : Byte) (depth : Nat) : Byte :=
  let sr := statusPut sr .ff false
  if depth = 0 then statusPut (statusPut sr .fe true) .dr false else sr

/-- The status bits of a cleared queue (R83): FE set, FF and DR cleared. -/
def statusCleared (sr : Byte) : Byte :=
  statusPut (statusPut (statusPut sr .fe true) .ff false) .dr false

end Sys2Proof.Machine
end

