-- ==== Sys2Proof/Machine/Operands.lean ====
section
/-! DEFINITION. Operands: the parameter RAM and registers, the bit layouts of the parameter bytes (R64, R65), the
fields of the mode byte (R20), the lanes and data of a transfer (R155), the modify function (R156), the
movement of the address registers (R150), the repeat and group counts. -/

namespace Sys2Proof.Machine

/-! ## The parameter RAM and the parameter registers -/

/-- `ra[k]`, `k` from 0 to 15 (R7). -/
def bankGet (v : Vector Byte 16) (k : BitVec 4) : Byte := v[k.toNat]'(k.isLt)

/-- `ra[k] <- b` (R7). -/
def bankSet (v : Vector Byte 16) (k : BitVec 4) (b : Byte) : Vector Byte 16 := v.set k.toNat b k.isLt

/-- `pr[k]` (R7). `k` is a value of `pcount`, 0 to 15 (R16); a register past `PR_SIZE`, which no run reads, reads 0
(log 20). -/
def prGet (pr : List Byte) (k : BitVec 4) : Byte := pr.getD k.toNat 0#8

/-- `pr[k] <- b` (R7); a register past `PR_SIZE`, which no run writes, does not exist (log 20). -/
def prSet (pr : List Byte) (k : BitVec 4) (b : Byte) : List Byte := pr.set k.toNat b

/-- `pr[0] <- b; pr[1..] <- 0` for `n` registers (R91). -/
def prLoad (n : Nat) (b : Byte) : List Byte := b :: List.replicate (n - 1) 0#8

/-- `Pk`, the k-th parameter byte, held in `pr[k]` (R64). -/
def Dispatcher.par (d : Dispatcher) (k : BitVec 4) : Byte := prGet d.pr k

/-! ## Parameter layouts (R64) -/

/-- `SyncDecode()` (R112): the eight SYNC parameter bytes as mode and geometry. -/
def syncDecode (pr : List Byte) : Geometry where
  mode := prGet pr 1#4
  aw   := (prGet pr 2#4).setWidth 9 + 2#9
  hs   := ((prGet pr 3#4).extractLsb 4 0).setWidth 6 + 1#6
  vs   := (prGet pr 4#4).extractLsb 1 0 ++ (prGet pr 3#4).extractLsb 7 5
  hfp  := ((prGet pr 4#4).extractLsb 7 2).setWidth 7 + 1#7
  hbp  := ((prGet pr 5#4).extractLsb 5 0).setWidth 7 + 1#7
  vfp  := (prGet pr 6#4).extractLsb 5 0
  vbp  := (prGet pr 8#4).extractLsb 7 2
  al   := (prGet pr 8#4).extractLsb 1 0 ++ prGet pr 7#4

/-- The three CCHAR parameter bytes as the cursor fields (R115). -/
def ccharDecode (pr : List Byte) : CursorRegs where
  lr   := ((prGet pr 1#4).extractLsb 4 0).setWidth 6 + 1#6
  dc   := (prGet pr 1#4).getLsbD 7
  ctop := (prGet pr 2#4).extractLsb 4 0
  sc   := (prGet pr 2#4).getLsbD 5
  br   := (prGet pr 3#4).extractLsb 2 0 ++ (prGet pr 2#4).extractLsb 7 6
  cbot := (prGet pr 3#4).extractLsb 7 3

/-- The ZOOM parameter byte as the two factors (R118). -/
def zoomDecode (p : Byte) : ZoomRegs where
  disp := (p.extractLsb 7 4).setWidth 5 + 1#5
  gchr := (p.extractLsb 3 0).setWidth 5 + 1#5

/-- The word address of the first three CURS parameter bytes (R130). -/
def cursEad (pr : List Byte) : VAddr :=
  (prGet pr 3#4).extractLsb 1 0 ++ prGet pr 2#4 ++ prGet pr 1#4

/-- The dot address of the fourth CURS parameter byte (R130). -/
def cursDad (pr : List Byte) : BitVec 4 := (prGet pr 4#4).extractLsb 7 4

/-- A 16-bit quantity of two bytes, the least significant first (R43). -/
def wordOf (lo hi : Byte) : Word := hi ++ lo

/-- A 14-bit figure parameter of two bytes, the least significant first (R64, R136). -/
def figCountOf (lo hi : Byte) : FigCount := hi.extractLsb 5 0 ++ lo

/-! ## The mode byte (R20) -/

/-- `display_mode` (R20). -/
inductive DisplayMode where
  | mixed
  | graphics
  | character
  | invalid
  deriving DecidableEq, Repr

/-- `interlace` (R20). -/
inductive Interlace where
  | off
  | invalid
  | repeatField
  | on
  deriving DecidableEq, Repr

/-- `display_mode = {mode[5], mode[1]}`. -/
def displayMode (mode : Byte) : DisplayMode :=
  match mode.getLsbD 5, mode.getLsbD 1 with
  | false, false => .mixed
  | false, true  => .graphics
  | true,  false => .character
  | true,  true  => .invalid

/-- `interlace = {mode[3], mode[0]}`. -/
def interlace (mode : Byte) : Interlace :=
  match mode.getLsbD 3, mode.getLsbD 0 with
  | false, false => .off
  | false, true  => .invalid
  | true,  false => .repeatField
  | true,  true  => .on

/-- `refresh = mode[2]`, stored and read by no rule (R20, R266). -/
def refresh (mode : Byte) : Bool := mode.getLsbD 2

/-! ## Transfers -/

/-- The lane mask of a transfer type (R156). The invalid type moves no data (R68 (a)) and has no lane. -/
def laneOf : XferType → Word
  | .word     => 0xFFFF#16
  | .invalid  => 0x0000#16
  | .lowByte  => 0x00FF#16
  | .highByte => 0xFF00#16

/-- `WdatGroup()` (R155): the number of parameter bytes of one data unit. -/
def wdatGroup (t : XferType) : BitVec 4 := if t = .word then 2#4 else 1#4

/-- The data word of one WDAT unit (R155). -/
def wdatData (t : XferType) (pr : List Byte) : Word :=
  match t with
  | .word     => wordOf (prGet pr 1#4) (prGet pr 2#4)
  | .invalid  => 0#16
  | .lowByte  => wordOf (prGet pr 1#4) 0#8
  | .highByte => wordOf 0#8 (prGet pr 1#4)

/-- The low half of a word (R43). -/
def loByte (w : Word) : Byte := w.extractLsb 7 0

/-- The high half of a word (R43). -/
def hiByte (w : Word) : Byte := w.extractLsb 15 8

/-- The bytes RDAT queues for one word, in order (R158). -/
def rdatBytes (t : XferType) (w : Word) : List Byte :=
  match t with
  | .word     => [loByte w, hiByte w]
  | .invalid  => []
  | .lowByte  => [loByte w]
  | .highByte => [hiByte w]

/-- An 18-bit address as three bytes, the least significant first, the top one zero-extended (R43, R180, R182). -/
def addrBytes (a : VAddr) : List Byte :=
  [a.extractLsb 7 0, a.extractLsb 15 8, (a.extractLsb 17 16).setWidth 8]

/-- The dot-address bytes of CURD (R180): the one-hot word `1 << dad`, or `dad << 4`. -/
def dotBytes (n : CurdDadBytes) (dad : BitVec 4) : List Byte :=
  match n with
  | .two => [loByte (1#16 <<< dad.toNat), hiByte (1#16 <<< dad.toNat)]
  | .one => [dad ++ 0#4]

/-- `Modify(m, old, data, sel)` (R156). -/
def modifyWord (m : ModMode) (old data sel : Word) : Word :=
  match m with
  | .replace    => (old &&& ~~~sel) ||| (data &&& sel)
  | .complement => old ^^^ (data &&& sel)
  | .reset      => old &&& ~~~(data &&& sel)
  | .set        => old ||| (data &&& sel)

/-! ## The address registers (R150) -/

/-- `RotLeft()` (R150): the carry test reads `mask` before the rotate. -/
def AddrRegs.rotLeft (a : AddrRegs) : AddrRegs where
  ead  := if a.mask.getLsbD 15 then a.ead + 1#18 else a.ead
  dad  := a.dad + 1#4
  mask := a.mask.rotateLeft 1

/-- `RotRight()` (R150). -/
def AddrRegs.rotRight (a : AddrRegs) : AddrRegs where
  ead  := if a.mask.getLsbD 0 then a.ead - 1#18 else a.ead
  dad  := a.dad + 15#4
  mask := a.mask.rotateRight 1

/-- The part of a direction code that moves by lines (R150): down for 0, 1, 7, up for 3, 4, 5. -/
def AddrRegs.moveLine (a : AddrRegs) (pitch : Byte) (d : BitVec 3) : AddrRegs :=
  if d = 0#3 ∨ d = 1#3 ∨ d = 7#3 then { a with ead := a.ead + pitch.setWidth 18 }
  else if d = 3#3 ∨ d = 4#3 ∨ d = 5#3 then { a with ead := a.ead - pitch.setWidth 18 }
  else a

/-- The part of a direction code that moves by dots (R150): left rotate for 1, 2, 3, right rotate for 5, 6, 7. -/
def AddrRegs.moveDot (a : AddrRegs) (d : BitVec 3) : AddrRegs :=
  if d = 1#3 ∨ d = 2#3 ∨ d = 3#3 then a.rotLeft
  else if d = 5#3 ∨ d = 6#3 ∨ d = 7#3 then a.rotRight
  else a

/-- `AdvanceEAD(d)` (R150) for pitch `P`. -/
def AddrRegs.advance (a : AddrRegs) (pitch : Byte) (d : BitVec 3) : AddrRegs := (a.moveLine pitch d).moveDot d

/-- `n` steps of `AdvanceEAD(d)`. -/
def AddrRegs.advanceN (a : AddrRegs) (pitch : Byte) (d : BitVec 3) (n : Nat) : AddrRegs :=
  Nat.iterate (fun a => a.advance pitch d) n a

end Sys2Proof.Machine
end

