-- ==== Sys2Proof/Machine/Ops.lean ====
section
/-! DEFINITION. The named operations of the machine: outputs, the phase, display memory, the FIFO, the shared
read-modify-write. Nothing traps (R255): raising a log entry is the one shared operation in the place of
taking an exception, and there is none in the place of returning from one. -/

namespace Sys2Proof.Machine

/-! ## Outcomes -/

/-- Run the next part of an event where the first part answered a state. -/
def andThen (r : Result State) (f : State → Result State) : Result State :=
  match r with
  | .next s => f s
  | .fault e => .fault e
  | .refused e => .refused e

/-! ## Output streams (R30) -/

/-- The number of a log code in the table of R250. -/
def LogCode.number : LogCode → Nat
  | .fifoOverflow => 1
  | .unknownOpcode => 2
  | .paramUnderrun => 3
  | .strayParam => 4
  | .invalidType => 5
  | .configClamp => 6
  | .unspecifiedFigd => 7
  | .badPort => 8

/-- `raise Log(code, info)` (R250): appends one entry and changes nothing else. -/
def State.raiseLog (s : State) (code : LogCode) (info : Byte) : State :=
  { s with out := { s.out with log := s.out.log ++ [⟨code, info⟩] } }

/-- `Line(name, level)` (R7, R256). -/
def State.driveLine (s : State) (name : LineName) (level : Bool) : State :=
  { s with out := { s.out with lines := s.out.lines ++ [⟨name, level⟩] } }

/-- A run of `Pixel(...)` calls in order (R7, R198). -/
def State.emitPixels (s : State) (ps : List Pixel) : State :=
  { s with out := { s.out with pixels := s.out.pixels ++ ps } }

/-- The byte a port read returns (R30). -/
def State.returnByte (s : State) (b : Byte) : State :=
  { s with out := { s.out with reads := s.out.reads ++ [b] } }

/-! ## The dispatcher's phase -/

/-- `phase <- p` (R16). -/
def State.setPhase (s : State) (p : Phase) : State := { s with disp := { s.disp with phase := p } }

/-- `pcount <- n` (R16). -/
def State.setPcount (s : State) (n : BitVec 4) : State := { s with disp := { s.disp with pcount := n } }

/-- Latch the transfer type and the modify mode of a command byte of format T (R28). -/
def State.latchXfer (s : State) (t : XferType) (m : ModMode) : State :=
  { s with disp := { s.disp with xtype := t, mod := m } }

/-! ## Display memory (R44 to R46) -/

/-- What a byte of display memory that nothing has written reads as. DESIGN CHOICE (log 5, unsafe): the spec
leaves the contents at creation unspecified (R281, U2), and no access faults (R45). -/
def unlistedByte (_ : Nat) : Byte := 0#8

/-- The byte at a byte address. -/
def Memory.readByte : Memory → Nat → Byte
  | [], a => unlistedByte a
  | c :: m, a => if a = c.1 then c.2 else Memory.readByte m a

/-- Put an entry at its place in a rising list. -/
def Memory.insertByte : Memory → Nat → Byte → Memory
  | [], a, b => [(a, b)]
  | c :: m, a, b =>
    if a < c.1 then (a, b) :: c :: m
    else if a = c.1 then (a, b) :: m
    else c :: Memory.insertByte m a b

/-- Write a byte, keeping the canonical form: a byte an unlisted address would read as is not listed. -/
def Memory.writeByte (m : Memory) (a : Nat) (b : Byte) : Memory :=
  if b = unlistedByte a then m.filter (fun c => c.1 ≠ a) else Memory.insertByte m a b

/-- The canonical form: addresses strictly rising, no entry equal to what an unlisted address reads as. -/
abbrev Memory.wf (m : Memory) : Prop :=
  m.Pairwise (fun c d => c.1 < d.1) ∧ ∀ c ∈ m, c.2 ≠ unlistedByte c.1

/-- The word `M[a]` (R44), low half at byte `2a` (log 6). -/
def Memory.readWord (m : Memory) (a : Nat) : Word :=
  wordOf (Memory.readByte m (2 * a)) (Memory.readByte m (2 * a + 1))

/-- `M[a]` set to a word (R44). -/
def Memory.writeWord (m : Memory) (a : Nat) (w : Word) : Memory :=
  Memory.writeByte (Memory.writeByte m (2 * a) (loByte w)) (2 * a + 1) (hiByte w)

/-- The word of display memory an address reaches: `addr mod VRAM_WORDS` (R45). -/
def State.vramIndex (s : State) (a : VAddr) : Nat := a.toNat % s.cfg.vramWords

/-- `MemRead(a, 16)` (R44). -/
def State.memRead (s : State) (a : VAddr) : Word := Memory.readWord s.mem (s.vramIndex a)

/-- `MemWrite(a, 16, v)` (R44). -/
def State.memWrite (s : State) (a : VAddr) (v : Word) : State :=
  { s with mem := Memory.writeWord s.mem (s.vramIndex a) v }

/-! ## The FIFO (R80 to R83) -/

/-- `Enqueue(b, c)` (R80). -/
def State.enqueue (s : State) (b : Byte) (c : Bool) : State :=
  if s.fifo.length = fifoDepth then s.raiseLog .fifoOverflow b
  else
    { s with
      fifo := s.fifo ++ [⟨b, c⟩]
      sr   := statusAfterEnqueue s.sr (s.fifo.length + 1) s.fifoDir }

/-- Result bytes enqueued in order, untagged (R158, R180, R182). -/
def State.enqueueResults (s : State) (bs : List Byte) : State := bs.foldl (fun s b => s.enqueue b false) s

/-- `Dequeue()` (R81). -/
def State.dequeue (s : State) : Option (FifoEntry × State) :=
  match s.fifo with
  | [] => none
  | e :: q => some (e, { s with fifo := q, sr := statusAfterDequeue s.sr q.length })

/-- `FifoClear()` (R83). -/
def State.fifoClear (s : State) : State := { s with fifo := [], sr := statusCleared s.sr }

/-- `PeekIsCommand()` (R83). -/
def State.peekIsCommand (s : State) : Bool :=
  match s.fifo with
  | [] => false
  | e :: _ => e.isCommand

/-- `PeekIsParameter()` (R83). -/
def State.peekIsParameter (s : State) : Bool :=
  match s.fifo with
  | [] => false
  | e :: _ => !e.isCommand

/-- `SetDirection(d)` (R82): a new direction clears the queue first. -/
def State.setDirection (s : State) (d : FifoDir) : State :=
  if d ≠ s.fifoDir then { s.fifoClear with fifoDir := d } else s

/-! ## Drawing -/

/-- `AdvanceEAD(d)` (R150). -/
def State.advanceEad (s : State) (d : BitVec 3) : State := { s with addr := s.addr.advance s.pitch d }

/-- The read-modify-write of the word at `ead` that WDAT and GCHRD share (R155, R156, R162). -/
def State.modifyAtEad (s : State) (data lane : Word) : State :=
  s.memWrite s.addr.ead (modifyWord s.disp.mod (s.memRead s.addr.ead) data (s.addr.mask &&& lane))

/-- One write of a transfer or of a dot, and the step after it (R155, R162). -/
def State.plot (s : State) (data lane : Word) (d : BitVec 3) : State := (s.modifyAtEad data lane).advanceEad d

/-- `figs_dc <- 0` (R155, R158). -/
def State.clearRepeat (s : State) : State := { s with fig := { s.fig with dc := 0#14 } }

end Sys2Proof.Machine
end

