-- ==== Sys2Proof/Machine/Timing.lean ====
section
/-! DEFINITION. The sync and blanking timing generator (R220 to R230): totals, level functions, the tick, the
blink counter, rearm, and the external vsync input. -/

namespace Sys2Proof.Machine

/-! ## Raster layout (R221, R222) -/

/-- `hs + hbp + aw + hfp`: ticks per line, before the clamp (R222). -/
def Geometry.hTotal (g : Geometry) : Nat := g.hs.toNat + g.hbp.toNat + g.aw.toNat + g.hfp.toNat

/-- `vs + vbp + al + vfp`: lines per field, before the clamp (R222). -/
def Geometry.vTotal (g : Geometry) : Nat := g.vs.toNat + g.vbp.toNat + g.al.toNat + g.vfp.toNat

/-- `HTc` (R222). -/
def Geometry.htc (g : Geometry) : Nat := max g.hTotal 1

/-- `VTc` (R222). -/
def Geometry.vtc (g : Geometry) : Nat := max g.vTotal 1

/-- `HsyncAt(h)` (R221). -/
def Geometry.hsyncAt (g : Geometry) (h : Nat) : Bool := decide (h < g.hs.toNat)

/-- `HblankAt(h)` (R221). -/
def Geometry.hblankAt (g : Geometry) (h : Nat) : Bool :=
  !(decide (g.hs.toNat + g.hbp.toNat ≤ h) && decide (h < g.hs.toNat + g.hbp.toNat + g.aw.toNat))

/-- `VsyncAt(v)` (R221). -/
def Geometry.vsyncAt (g : Geometry) (v : Nat) : Bool := decide (v < g.vs.toNat)

/-! ## The tick (R224 to R227) -/

/-- `max(br, 1)`: the fields a blinking cursor is shown for (R199, R227). -/
def CursorRegs.blinkHalf (c : CursorRegs) : Nat := max c.br.toNat 1

/-- The blink counter at the start of a field (R227). -/
def blinkNext (ctr : BitVec 6) (half : Nat) : BitVec 6 := BitVec.ofNat 6 ((ctr.toNat + 1) % (2 * half))

/-- Advance the blink counter once (R227). -/
def State.countField (s : State) : State :=
  { s with raster := { s.raster with blinkCtr := blinkNext s.raster.blinkCtr s.cursor.blinkHalf } }

/-- The VSYNC part of `UpdateLevels` (R226). -/
def State.updateVsync (s : State) (n : Bool) : State :=
  if n ≠ s.status .vsy then (s.setStatus .vsy n).driveLine .vsync n else s

/-- The HSYNC part of `UpdateLevels` (R226). -/
def State.updateHsync (s : State) (n : Bool) : State :=
  if n ≠ s.raster.hsyncLevel then
    State.driveLine { s with raster := { s.raster with hsyncLevel := n } } .hsync n
  else s

/-- The BLANK part of `UpdateLevels` (R226). -/
def State.updateBlank (s : State) (n : Bool) : State :=
  if n ≠ s.status .hbl then (s.setStatus .hbl n).driveLine .blank n else s

/-- `UpdateLevels(h, v)` (R226): a callback only where a level changes, in the order VSYNC, HSYNC, BLANK (R230). -/
def State.updateLevels (s : State) (h v : Nat) : State :=
  ((s.updateVsync (s.geom.vsyncAt v)).updateHsync (s.geom.hsyncAt h)).updateBlank (s.geom.hblankAt h)

/-- The successor of the raster position `(h, v)` and the hold of a slave at the end of a field (R224, R225, R229). -/
def Raster.successor (r : Raster) (g : Geometry) (master : Bool) : Raster :=
  if r.hnext.toNat + 1 < g.htc then { r with hnext := r.hnext + 1#9 }
  else if r.vnext.toNat + 1 < g.vtc then { r with hnext := 0#9, vnext := r.vnext + 1#11 }
  else { r with hnext := 0#9, vnext := 0#11, vwait := if master then r.vwait else true }

/-- The raster enters the next position (R224, but for the hold test). -/
def State.enterPosition (s : State) : State :=
  let h := s.raster.hnext.toNat
  let v := s.raster.vnext.toNat
  let s1 := if h = 0 ∧ v = 0 then s.countField else s
  let s2 := s1.updateLevels h v
  { s2 with raster := s2.raster.successor s2.geom s2.master }

/-- `Tick()` (R224): nothing while a slave holds (R229). -/
def State.tick (s : State) : State := if s.raster.vwait then s else s.enterPosition

/-! ## Rearm and the external vsync (R228, R229) -/

/-- `Rearm()` (R228): the raster position goes to (0,0) and a hold is released. -/
def State.rearm (s : State) : State :=
  { s with raster := { s.raster with hnext := 0#9, vnext := 0#11, vwait := false } }

/-- `ExtVsync` (R229): restarts the field of a slave, ignored by a master. -/
def State.extVsync (s : State) : State := if s.master then s else s.rearm

end Sys2Proof.Machine
end

