-- ==== Sys2Proof/Machine/DisplayControl.lean ====
section
/-! DEFINITION. The display-control commands RESET, SYNC, VSYNC, CCHAR, START, BCTRL, ZOOM, PITCH (R110 to R119).

A meaning `execX` is the dispatcher's case for the command, R91 and R92 read together: it runs with `pcount = 0`
when the command byte has been dispatched, and again with `pcount = k` when the k-th parameter byte has been
stored in `pr[k]` (R17, R93; log 1). -/

namespace Sys2Proof.Machine

/-- A fixed-arity command (R63, R93): await its parameters, apply once when the n-th is stored, then idle. -/
def fixedArity (n : BitVec 4) (apply : State → State) (s : State) : Result State :=
  if s.disp.pcount = 0#4 then .next (s.setPhase .await)
  else if s.disp.pcount = n then .next ((apply s).setPhase .idle)
  else .next s

/-- An immediate command (R63): applied when the command byte is dispatched. -/
def immediate (apply : State → State) (s : State) : Result State := .next ((apply s).setPhase .idle)

/-! ## RESET and SYNC -/

/-- `ApplyReset()` (R110). -/
def State.applyReset (s : State) : State :=
  { s with
    de   := false
    addr := { ead := 0#18, dad := 0#4, mask := 0#16 }
    ra   := bankSet (bankSet (bankSet (bankSet s.ra 0#4 0#8) 1#4 0#8) 2#4 0#8) 3#4 s.cfg.resetRa3 }

/-- The configuration fault of a SYNC decode (R113): logged when the vertical total is 0. -/
def State.logClamp (s : State) : State := if s.geom.vTotal = 0 then s.raiseLog .configClamp 0#8 else s

/-- `ApplySync()` (R111) with the display-enable value `f`. -/
def State.applySync (s : State) (f : Bool) : State :=
  (State.logClamp { s with geom := syncDecode s.disp.pr, de := f }).rearm

/-- RESET (R110): the reset part at the command byte, and the SYNC decode with display-enable 0 at the eighth
parameter, if eight arrive (R95). -/
def execReset (s : State) : Result State :=
  if s.disp.pcount = 0#4 then .next (s.applyReset.setPhase .await)
  else if s.disp.pcount = 8#4 then .next ((s.applySync false).setPhase .idle)
  else .next s

/-- SYNC (R111): applied at the eighth parameter; `f` is the display-enable value, `cr[0]`. -/
def execSync (f : Bool) (s : State) : Result State := fixedArity 8#4 (fun s => s.applySync f) s

/-! ## VSYNC -/

/-- `ApplyVsync()` (R114). -/
def State.applyVsync (s : State) (f : Bool) : State :=
  { s with master := f, raster := { s.raster with vwait := if f then false else s.raster.vwait } }

/-- VSYNC (R114): master (1) or slave (0); a held field resumes when the controller is made master. -/
def execVsync (f : Bool) (s : State) : Result State := immediate (fun s => s.applyVsync f) s

/-! ## CCHAR -/

/-- `ApplyCchar()` (R115). -/
def State.applyCchar (s : State) : State := { s with cursor := ccharDecode s.disp.pr }

/-- CCHAR (R115): the six cursor fields, at the third parameter. -/
def execCchar (s : State) : Result State := fixedArity 3#4 State.applyCchar s

/-! ## START and BCTRL -/

/-- `de <- f` (R116, R117). -/
def State.setDisplayEnable (s : State) (f : Bool) : State := { s with de := f }

/-- START (R116): display-enable set. -/
def execStart (s : State) : Result State := immediate (fun s => s.setDisplayEnable true) s

/-- BCTRL (R117): display-enable from the opcode's bit 0. -/
def execBctrl (f : Bool) (s : State) : Result State := immediate (fun s => s.setDisplayEnable f) s

/-! ## ZOOM and PITCH -/

/-- `ApplyZoom()` (R118). -/
def State.applyZoom (s : State) : State := { s with zoom := zoomDecode (s.disp.par 1#4) }

/-- ZOOM (R118): both zoom factors, at the first parameter. -/
def execZoom (s : State) : Result State := fixedArity 1#4 State.applyZoom s

/-- `ApplyPitch()` (R119). -/
def State.applyPitch (s : State) : State := { s with pitch := s.disp.par 1#4 }

/-- PITCH (R119): the words per line, at the first parameter. -/
def execPitch (s : State) : Result State := fixedArity 1#4 State.applyPitch s

end Sys2Proof.Machine
end

