-- ==== Sys2Proof/Machine/DrawingSetup.lean ====
section
/-! DEFINITION. The addressing and drawing set-up commands CURS, PRAM, MASK, FIGS (R130 to R136). -/

namespace Sys2Proof.Machine

/-! ## CURS and MASK -/

/-- `ApplyCurs()` (R130): `ead` and `dad`, and nothing else (R131). -/
def State.applyCurs (s : State) : State :=
  { s with addr := { s.addr with ead := cursEad s.disp.pr, dad := cursDad s.disp.pr } }

/-- CURS (R130): at the fourth parameter. -/
def execCurs (s : State) : Result State := fixedArity 4#4 State.applyCurs s

/-- `ApplyMask()` (R135). -/
def State.applyMask (s : State) : State :=
  { s with addr := { s.addr with mask := wordOf (s.disp.par 1#4) (s.disp.par 2#4) } }

/-- MASK (R135): at the second parameter. -/
def execMask (s : State) : Result State := fixedArity 2#4 State.applyMask s

/-! ## PRAM -/

/-- `ra_ptr <- n` on the PRAM command byte (R91, R133). -/
def State.startPram (s : State) (n : BitVec 4) : State := { s with disp := { s.disp with raPtr := n.setWidth 5 } }

/-- `ApplyPramByte(v)` (R133): stored at `ra_ptr`, which stops at 16; past it the byte is ignored. -/
def State.applyPramByte (s : State) (v : Byte) : State :=
  if s.disp.raPtr.toNat ≤ 15 then
    { s with
      ra   := bankSet s.ra (s.disp.raPtr.setWidth 4) v
      disp := { s.disp with raPtr := s.disp.raPtr + 1#5 } }
  else s

/-- PRAM (R133, R94): the pointer at the command byte; then every parameter byte is applied as it arrives, and
the command stays in AWAIT with `pcount` 0. -/
def execPram (n : BitVec 4) (s : State) : Result State :=
  if s.disp.pcount = 0#4 then .next ((s.startPram n).setPhase .await)
  else .next ((s.applyPramByte (s.disp.par s.disp.pcount)).setPcount 0#4)

/-! ## FIGS -/

/-- `ApplyFigsGroup()` (R136): acts at odd `pcount` only. -/
def State.applyFigsGroup (s : State) : State :=
  let p := s.disp.par
  if s.disp.pcount = 1#4 then
    { s with fig := { s.fig with type := (p 1#4).extractLsb 7 3, dir := (p 1#4).extractLsb 2 0 } }
  else if s.disp.pcount = 3#4 then
    { s with fig := { s.fig with dc := figCountOf (p 2#4) (p 3#4), gd := (p 3#4).getLsbD 6 } }
  else if s.disp.pcount = 5#4 then { s with fig := { s.fig with d := figCountOf (p 4#4) (p 5#4) } }
  else if s.disp.pcount = 7#4 then { s with fig := { s.fig with d2 := figCountOf (p 6#4) (p 7#4) } }
  else if s.disp.pcount = 9#4 then { s with fig := { s.fig with d1 := figCountOf (p 8#4) (p 9#4) } }
  else if s.disp.pcount = 11#4 then { s with fig := { s.fig with dm := figCountOf (p 10#4) (p 11#4) } }
  else s

/-- FIGS (R136, R94): awaits at the command byte; each group is applied when its last byte arrives; idle after
the eleventh. -/
def execFigs (s : State) : Result State :=
  if s.disp.pcount = 0#4 then .next (s.setPhase .await)
  else if s.disp.pcount = 11#4 then .next (s.applyFigsGroup.setPhase .idle)
  else .next s.applyFigsGroup

end Sys2Proof.Machine
end

