-- ==== Sys2Proof/Machine/DataTransfer.lean ====
section
/-! DEFINITION. The data-transfer and drawing commands WDAT, RDAT, FIGD, GCHRD, DMAR, DMAW (R150 to R167) and the
`DmaEnd` input. -/

namespace Sys2Proof.Machine

/-! ## WDAT -/

/-- `WdatStart(b)` (R155): latch; an invalid type is logged with the command byte and nothing is awaited (R68). -/
def State.startWdat (s : State) (t : XferType) (m : ModMode) : State :=
  if t = .invalid then ((s.latchXfer t m).raiseLog .invalidType s.disp.cr).setPhase .idle
  else (s.latchXfer t m).setPhase .await

/-- `n` writes of the same data, each with the `mask` it finds, each followed by a step in `fig_dir` (R155). -/
def State.plotN (s : State) (data lane : Word) (n : Nat) : State :=
  Nat.iterate (fun s => s.plot data lane s.fig.dir) n s

/-- `ApplyWdat()` (R155): `figs_dc + 1` writes, then the repeat count is 0. The invalid type never awaits (R68),
so its case does nothing (log 14). -/
def State.applyWdat (s : State) : State :=
  match s.disp.xtype with
  | .invalid => s
  | t => (s.plotN (wdatData t s.disp.pr) (laneOf t) (s.fig.dc.toNat + 1)).clearRepeat

/-- WDAT (R155, R94): starts at the command byte; each complete data unit is applied, and the command stays in
AWAIT with `pcount` 0. -/
def execWdat (t : XferType) (m : ModMode) (s : State) : Result State :=
  if s.disp.pcount = 0#4 then .next (s.startWdat t m)
  else if s.disp.pcount = wdatGroup s.disp.xtype then .next (s.applyWdat.setPcount 0#4)
  else .next s

/-! ## RDAT -/

/-- One word of an RDAT (R158): read, queue, step. -/
def State.readOut (s : State) (t : XferType) : State :=
  (s.enqueueResults (rdatBytes t (s.memRead s.addr.ead))).advanceEad s.fig.dir

/-- `n` words of an RDAT. -/
def State.readOutN (s : State) (t : XferType) (n : Nat) : State := Nat.iterate (fun s => s.readOut t) n s

/-- What RDAT with the invalid type does to the FIFO direction: nothing by R158, turned to READ by R252 (e) (log 18). -/
def State.turnForInvalid (s : State) : State :=
  match s.cfg.rdatInvalid with
  | .keepsDirection => s
  | .turnsToRead => s.setDirection .read

/-- `ApplyRdat()` (R158); the invalid type is logged and moves nothing (R68, R252 (e)). -/
def State.applyRdat (s : State) (t : XferType) (m : ModMode) : State :=
  let s1 := s.latchXfer t m
  if t = .invalid then s1.turnForInvalid.raiseLog .invalidType s1.disp.cr
  else ((s1.setDirection .read).readOutN t (s1.fig.dc.toNat + 1)).clearRepeat

/-- RDAT (R158). -/
def execRdat (t : XferType) (m : ModMode) (s : State) : Result State := immediate (fun s => s.applyRdat t m) s

/-! ## FIGD -/

/-- Display memory after a list of `MemWrite`s in order (R44). -/
def State.memAfter (s : State) (ws : List (VAddr × Word)) : Memory :=
  ws.foldl (fun m w => Memory.writeWord m (s.vramIndex w.1) w.2) s.mem

/-- What R160 leaves unspecified, taken from a free draw: the contents of display memory, through a free list of
writes, and the eight registers. -/
def State.loadFigd (s : State) (o : FigdOutcome) : State :=
  { s with
    mem  := s.memAfter o.writes
    addr := { ead := o.ead, dad := o.dad, mask := o.mask }
    fig  := { s.fig with dc := o.dc, d := o.d, d2 := o.d2, d1 := o.d1, dm := o.dm } }

/-- Mark the run (R160: "a model marks the run as refused") and count a free draw (log 8, log 9). -/
def State.markRefused (s : State) : State := { s with runRefused := true, freeCount := s.freeCount + 1 }

/-- FIGD's effect (R160): one log entry; under `STUB` nothing further, under `REFUSE` the unspecified values are
FREE VALUES and the run is marked. -/
def State.applyFigd (s : State) : State :=
  match s.cfg.figdPolicy with
  | .stub => s.raiseLog .unspecifiedFigd 0x6C#8
  | .refuse => ((s.raiseLog .unspecifiedFigd 0x6C#8).loadFigd (Config.freeFigd s.freeCount)).markRefused

/-- FIGD (R160): recognised, immediate. -/
def execFigd (s : State) : Result State := immediate State.applyFigd s

/-! ## GCHRD -/

/-- A dot of the pattern drawn `z` times (R162). -/
def State.drawDot (s : State) (on : Bool) (z : Nat) : State :=
  Nat.iterate (fun s => s.plot (if on then 0xFFFF#16 else 0#16) 0xFFFF#16 s.fig.dir) z s

/-- The eight dots of a pattern row, bit 0 first (R162). -/
def State.drawDots (s : State) (pat : Byte) (z : Nat) : State :=
  (List.range 8).foldl (fun s b => s.drawDot (pat.getLsbD b) z) s

/-- `(fig_dir + 6) mod 8` (R162): the direction of successive rows. -/
def rowDirection (d : BitVec 3) : BitVec 3 := d + 6#3

/-- One drawn row and the row step (R162): the address registers return to the row's start and take one step in
the row direction. -/
def State.drawRow (s : State) (pat : Byte) (z : Nat) : State :=
  State.advanceEad { s.drawDots pat z with addr := s.addr } (rowDirection s.fig.dir)

/-- A pattern row drawn `z` times (R162). -/
def State.drawRows (s : State) (pat : Byte) (z : Nat) : State := Nat.iterate (fun s => s.drawRow pat z) z s

/-- `ApplyGchrd()` (R162): pattern rows from `ra[15]` down to `ra[8]`. -/
def State.applyGchrd (s : State) : State :=
  (List.range 8).foldl (fun s r => s.drawRows (bankGet s.ra (BitVec.ofNat 4 (15 - r))) s.zoom.gchr.toNat) s

/-- GCHRD (R162). -/
def execGchrd (s : State) : Result State := immediate State.applyGchrd s

/-! ## DMAR, DMAW and the end of a DMA transfer -/

/-- Raise the DRQ line unless it is raised (R165, R256). -/
def State.raiseDrq (s : State) : State := if s.drq then s else State.driveLine { s with drq := true } .drq true

/-- `ApplyDma()` (R165). -/
def State.applyDma (s : State) (t : XferType) (m : ModMode) : State :=
  ((s.latchXfer t m).setStatus .dma true).raiseDrq

/-- DMAR (R165). -/
def execDmar (t : XferType) (m : ModMode) (s : State) : Result State := immediate (fun s => s.applyDma t m) s

/-- DMAW (R166): as DMAR in every respect. -/
def execDmaw (t : XferType) (m : ModMode) (s : State) : Result State := immediate (fun s => s.applyDma t m) s

/-- `DmaEnd` (R167). -/
def State.dmaEnd (s : State) : State :=
  let s1 := s.setStatus .dma false
  if s1.drq then State.driveLine { s1 with drq := false } .drq false else s1

end Sys2Proof.Machine
end

