-- ==== Sys2Proof/Machine/Readback.lean ====
section
/-! DEFINITION. The read-back commands CURD, LPRD and the light-pen input (R180 to R183). -/

namespace Sys2Proof.Machine

/-- `ApplyCurd()` (R180): `ead` and the dot address into the READ FIFO. -/
def State.applyCurd (s : State) : State :=
  (s.setDirection .read).enqueueResults
    (addrBytes s.addr.ead ++ dotBytes s.cfg.curdDadBytes s.addr.dad)

/-- CURD (R180). -/
def execCurd (s : State) : Result State := immediate State.applyCurd s

/-- `ApplyLprd()` (R182): `lad` into the READ FIFO, light-pen-detect cleared. -/
def State.applyLprd (s : State) : State :=
  ((s.setDirection .read).enqueueResults (addrBytes s.lad)).setStatus .lpd false

/-- LPRD (R182). -/
def execLprd (s : State) : Result State := immediate State.applyLprd s

/-- `LightPenDetect(a)` (R183). -/
def State.lightPenDetect (s : State) (a : VAddr) : State := State.setStatus { s with lad := a } .lpd true

end Sys2Proof.Machine
end

