-- ==== Sys2Proof/Machine/Dispatch.lean ====
section
/-! DEFINITION. The dispatch of an instruction to its meaning, one arm a constructor. -/

namespace Sys2Proof.Machine

/-- The dispatcher's `case cmd of` (R91, R92): the meaning of every command of R66. -/
def exec (i : Instr) (s : State) : Host.Outcome State Fault Refusal :=
  match i with
  | .reset => Sys2Proof.Machine.execReset s
  | .sync f => Sys2Proof.Machine.execSync f s
  | .vsync f => Sys2Proof.Machine.execVsync f s
  | .cchar => Sys2Proof.Machine.execCchar s
  | .start => Sys2Proof.Machine.execStart s
  | .bctrl f => Sys2Proof.Machine.execBctrl f s
  | .zoom => Sys2Proof.Machine.execZoom s
  | .pitch => Sys2Proof.Machine.execPitch s
  | .curs => Sys2Proof.Machine.execCurs s
  | .pram n => Sys2Proof.Machine.execPram n s
  | .mask => Sys2Proof.Machine.execMask s
  | .figs => Sys2Proof.Machine.execFigs s
  | .wdat t m => Sys2Proof.Machine.execWdat t m s
  | .rdat t m => Sys2Proof.Machine.execRdat t m s
  | .figd => Sys2Proof.Machine.execFigd s
  | .gchrd => Sys2Proof.Machine.execGchrd s
  | .dmar t m => Sys2Proof.Machine.execDmar t m s
  | .dmaw t m => Sys2Proof.Machine.execDmaw t m s
  | .curd => Sys2Proof.Machine.execCurd s
  | .lprd => Sys2Proof.Machine.execLprd s

end Sys2Proof.Machine
end

