-- ==== Sys2Proof/Machine/Renderer.lean ====
section
/-! DEFINITION. The scanline renderer (R190 to R205): partitions, one line, one frame, the cursor, attribute
gating. It only produces pixel callbacks. -/

namespace Sys2Proof.Machine

/-! ## The partition table (R190 to R193) -/

/-- A partition descriptor (R190). -/
structure Partition where
  /-- Start address. -/
  sad : VAddr
  /-- The stored length field, one less than the span. -/
  len : BitVec 10
  /-- Image partition. -/
  im  : Bool
  /-- Double width. -/
  wd  : Bool
  deriving DecidableEq, Repr

/-- `Partition(i)` (R190), `i` from 0 to 3, from `ra[4i .. 4i+3]`. -/
def partitionAt (ra : Vector Byte 16) (i : Nat) : Partition :=
  let b (k : Nat) : Byte := bankGet ra (BitVec.ofNat 4 (4 * i + k))
  { sad := (b 2).extractLsb 1 0 ++ b 1 ++ b 0
    len := (b 3).extractLsb 5 0 ++ (b 2).extractLsb 7 4
    im  := (b 3).getLsbD 6
    wd  := (b 3).getLsbD 7 }

/-- `NP` (R191, R192, log 11): how many partitions are walked. -/
def partitionCount (m : DisplayMode) : Nat :=
  match m with
  | .mixed => 2
  | .graphics => 2
  | .character => 4
  | .invalid => 0

/-- `Image(i)` (R191). -/
def partitionIsImage (m : DisplayMode) (p : Partition) : Bool :=
  match m with
  | .mixed => p.im
  | .graphics => true
  | .character => false
  | .invalid => false

/-- The span of a partition in source lines, `len + 1` (R193). -/
def Partition.span (p : Partition) : Nat := p.len.toNat + 1

/-- `Top(i)` (R193). -/
def partitionTop (ra : Vector Byte 16) : Nat → Nat
  | 0 => 0
  | i + 1 => partitionTop ra i + (partitionAt ra i).span

/-- `NP` of the present mode. -/
def State.partitions (s : State) : Nat := partitionCount (displayMode s.geom.mode)

/-- `Total` (R193). -/
def State.totalLines (s : State) : Nat := partitionTop s.ra s.partitions

/-- The partition that holds source line `line` (R197). -/
def State.partitionOf (s : State) (line : Nat) : Option Nat :=
  (List.range s.partitions).find?
    (fun i => decide (partitionTop s.ra i ≤ line) && decide (line < partitionTop s.ra (i + 1)))

/-! ## One scanline (R194 to R198) -/

/-- `V` (R195): how many output lines show one source line. -/
def State.vRepeat (s : State) : Nat :=
  if interlace s.geom.mode = .on then 2 * s.zoom.disp.toNat else s.zoom.disp.toNat

/-- `row` of a source line `rel` lines into a partition (R194). -/
def State.rowOf (s : State) (image : Bool) (rel : Nat) : Nat := if image then rel else rel / s.cursor.lr.toNat

/-- `linecount` of a source line `rel` lines into a partition (R194). -/
def State.linecountOf (s : State) (image : Bool) (rel : Nat) : Nat := if image then 0 else rel % s.cursor.lr.toNat

/-- `base = (sad + row * pitch) mod 2^18` (R194). -/
def State.lineBase (s : State) (p : Partition) (row : Nat) : VAddr :=
  p.sad + BitVec.ofNat 18 (row * s.pitch.toNat)

/-- The word address of cell `c` (R196). -/
def cellAddr (wide : Bool) (base : VAddr) (c : Nat) : VAddr :=
  base + BitVec.ofNat 18 (if wide then c / 2 else c)

/-- The value of cell `c` from its word (R196): the word, or its low half for even `c` and its high half for
odd `c`. -/
def cellValue (wide : Bool) (c : Nat) (w : Word) : Word :=
  if wide then (if c % 2 = 0 then loByte w else hiByte w).setWidth 16 else w

/-! ## Attributes (R199 to R202) -/

/-- Raw attributes of a cell, before the gate (R200). -/
structure RawAttr where
  la   : BitVec 2
  lten : Bool
  rvv  : Bool
  vsp  : Bool
  gpa  : BitVec 2
  hlgt : Bool
  deriving DecidableEq, Repr, Inhabited

/-- `BlinkOn` (R199). -/
def State.blinkOn (s : State) : Bool := decide (s.raster.blinkCtr.toNat < s.cursor.blinkHalf)

/-- `CursorHit(i, addr, linecount)` (R199); `image` is `Image(i)`. -/
def State.cursorHit (s : State) (image : Bool) (addr : VAddr) (linecount : Nat) : Bool :=
  s.cursor.dc && !image && decide (addr = s.addr.ead)
    && decide (s.cursor.ctop.toNat ≤ linecount) && decide (linecount ≤ s.cursor.cbot.toNat)
    && (s.cursor.sc || s.blinkOn)

/-- The default `RAW_ATTR` (R200). -/
def State.standardAttr (s : State) (image : Bool) (addr : VAddr) (linecount : Nat) : RawAttr where
  la   := 0#2
  lten := false
  rvv  := s.cursorHit image addr linecount
  vsp  := !s.de
  gpa  := 0#2
  hlgt := false

/-- The controller's own state and parameters, with display memory, outputs and the model's own fields blanked:
what a replaced `RAW_ATTR` may depend on besides its arguments (R200). -/
def State.controllerPart (s : State) : State :=
  { s with
    mem := []
    out := { log := [], lines := [], pixels := [], reads := [] }
    events := []
    freeCount := 0
    runRefused := false }

/-- FREE VALUE (R200, U16; DESIGN CHOICE, log 10, safe): the raw attributes under a replaced `RAW_ATTR`, of the
controller's state, the partition, the cell, its address, `linecount` and its value. -/
opaque freeRawAttr : State → Nat → Nat → VAddr → Nat → Word → RawAttr

/-- `RAW_ATTR(i, c, addr, linecount, value)` (R200). -/
def State.rawAttr (s : State) (i c : Nat) (image : Bool) (addr : VAddr) (linecount : Nat) (value : Word) : RawAttr :=
  match s.cfg.rawAttr with
  | .standard => s.standardAttr image addr linecount
  | .replaced => freeRawAttr s.controllerPart i c addr linecount value

/-- `Gate(vsp, lten, rvv)` (R201): the passed `lten` and `rvv`. -/
def attrGate (vsp lten rvv : Bool) : Bool × Bool := (lten && !vsp, rvv && !vsp && !lten)

/-- The four renderings of a cell (R202). -/
inductive CellClass where
  | blank
  | fullBright
  | reversed
  | normal
  deriving DecidableEq, Repr

/-- `CellClass(vsp, lten, rvv)` (R202). -/
def cellClass (vsp lten rvv : Bool) : CellClass :=
  if vsp then .blank else if lten then .fullBright else if rvv then .reversed else .normal

/-! ## Lines and frames (R197, R203) -/

/-- The callback of cell `c` of output line `y` (R196 to R198, R200, R201). -/
def State.cellPixel (s : State) (i y : Nat) (image wide : Bool) (base : VAddr) (linecount c : Nat) : Pixel :=
  let addr  := cellAddr wide base c
  let value := cellValue wide c (s.memRead addr)
  let raw   := s.rawAttr i c image addr linecount value
  let gated := attrGate raw.vsp raw.lten raw.rvv
  { x := c, y := y, linecount := linecount, charcode := value, la := raw.la, lten := gated.1, rvv := gated.2
    vsp := raw.vsp, gpa := raw.gpa, hlgt := raw.hlgt }

/-- The callbacks of the cells of output line `y`, shown from source line `line` of partition `i` (R197). -/
def State.partitionLine (s : State) (i line y : Nat) : List Pixel :=
  let p     := partitionAt s.ra i
  let image := partitionIsImage (displayMode s.geom.mode) p
  let rel   := line - partitionTop s.ra i
  let base  := s.lineBase p (s.rowOf image rel)
  (List.range s.geom.aw.toNat).map (s.cellPixel i y image p.wd base (s.linecountOf image rel))

/-- `RenderLine(y)` (R197) as the list of its callbacks: none below the last partition. -/
def State.linePixels (s : State) (y : Nat) : List Pixel :=
  match s.partitionOf (y / s.vRepeat) with
  | none => []
  | some i => s.partitionLine i (y / s.vRepeat) y

/-- `RenderLine(y)` (R197). -/
def State.renderLine (s : State) (y : Nat) : State := s.emitPixels (s.linePixels y)

/-- `RenderFrame()` (R203) as the list of its callbacks: output lines 0 to `Total * V - 1`. -/
def State.framePixels (s : State) : List Pixel := (List.range (s.totalLines * s.vRepeat)).flatMap s.linePixels

/-- `RenderFrame()` (R203). -/
def State.renderFrame (s : State) : State := s.emitPixels s.framePixels

end Sys2Proof.Machine
end

