-- ==== Sys2Proof/Machine/Controller.lean ====
section
/-! DEFINITION. The dispatcher (R90 to R99), the port operations (R85 to R88), and what each event does (R8). -/

namespace Sys2Proof.Machine

/-! ## The dispatcher (R91, R92) -/

/-- `Incomplete()` (R91): the command in flight holds bytes it has not applied, or has not reached its count. -/
def Dispatcher.incomplete (d : Dispatcher) : Bool :=
  match d.cmd with
  | .command .sync  => decide (d.pcount.toNat < 8)
  | .command .cchar => decide (d.pcount.toNat < 3)
  | .command .zoom  => decide (d.pcount.toNat < 1)
  | .command .pitch => decide (d.pcount.toNat < 1)
  | .command .curs  => decide (d.pcount.toNat < 4)
  | .command .mask  => decide (d.pcount.toNat < 2)
  | .command .reset => decide (1 ≤ d.pcount.toNat) && decide (d.pcount.toNat ≤ 7)
  | .command .wdat  => decide (d.pcount = 1#4) && decide (d.xtype = .word)
  | .command .figs  =>
    decide (d.pcount = 2#4) || decide (d.pcount = 4#4) || decide (d.pcount = 6#4) || decide (d.pcount = 8#4)
      || decide (d.pcount = 10#4)
  | .command .pram | .command .vsync | .command .start | .command .bctrl | .command .rdat | .command .figd
  | .command .gchrd | .command .dmar | .command .dmaw | .command .curd | .command .lprd | .none | .invalid => false

/-- The underrun entry of the abandoned command (R91, R96). -/
def State.logUnderrun (s : State) : State :=
  if s.disp.phase = .await ∧ s.disp.incomplete = true then s.raiseLog .paramUnderrun s.disp.cr else s

/-- `cmd <- Decode(b)` (R16, R91). -/
def cmdOf (b : Byte) : Cmd :=
  match decode b with
  | .ok i => .command i.mnemonic
  | .error _ => .invalid

/-- The bookkeeping of a dispatched command byte (R91): `cr`, `pr`, `pcount`, `cmd`. -/
def State.loadCommand (s : State) (b : Byte) : State :=
  { s with
    disp := { s.disp with cr := b, cmd := cmdOf b, pcount := 0#4, pr := prLoad s.cfg.prSize b } }

/-- `DispatchCommand(b)` (R91, R97). -/
def dispatchCommand (b : Byte) (s : State) : Result State :=
  let s1 := s.logUnderrun.loadCommand b
  match decode b with
  | .ok i => exec i s1
  | .error _ => .next ((s1.raiseLog .unknownOpcode b).setPhase .idle)

/-- The bookkeeping of a parameter byte (R92): `pcount <- pcount + 1; pr[pcount] <- b`. -/
def State.storeParam (s : State) (b : Byte) : State :=
  { s with
    disp := { s.disp with pcount := s.disp.pcount + 1#4, pr := prSet s.disp.pr (s.disp.pcount + 1#4) b } }

/-- `DispatchParam(b)` (R92, R98): stray when idle, else one more byte of the command in flight. No command is in
flight when `cmd` is NONE or INVALID (R92); that case, which no run reaches, only stores the byte (log 14). -/
def dispatchParam (b : Byte) (s : State) : Result State :=
  match s.disp.phase with
  | .idle => .next (s.raiseLog .strayParam b)
  | .await =>
    match s.disp.cmd with
    | .command name => exec (instrOf name s.disp.cr) (s.storeParam b)
    | .none => .next (s.storeParam b)
    | .invalid => .next (s.storeParam b)

/-- One dequeued entry, by its tag (R86). -/
def dispatchEntry (e : FifoEntry) (s : State) : Result State :=
  if e.isCommand then dispatchCommand e.byte s else dispatchParam e.byte s

/-- `Drain()` (R86) with at most `n` entries taken: while the direction is WRITE and the queue holds an entry. -/
def drain : Nat → State → Result State
  | 0, s => .next s
  | n + 1, s =>
    match s.fifoDir with
    | .read => .next s
    | .write =>
      match s.dequeue with
      | none => .next s
      | some (e, s1) => andThen (dispatchEntry e s1) (drain n)

/-! ## Ports (R41, R85 to R88) -/

/-- What a port write does (R41). -/
inductive WritePort where
  | parameter
  | command
  | ignored
  deriving DecidableEq, Repr

/-- What a port read does (R41). -/
inductive ReadPort where
  | status
  | data
  deriving DecidableEq, Repr

/-- How many offsets the map has; an offset is taken modulo this (R41, log 15). -/
def portCount (m : PortMap) : Nat :=
  match m with
  | .a0 => 2
  | .threePort => 3

/-- The write function of an offset (R41). -/
def writePortAt (m : PortMap) (offset : Nat) : WritePort :=
  match m, offset % portCount m with
  | .a0, 0 => .parameter
  | .a0, _ => .command
  | .threePort, 0 => .ignored
  | .threePort, 1 => .parameter
  | .threePort, _ => .command

/-- The read function of an offset (R41). -/
def readPortAt (m : PortMap) (offset : Nat) : ReadPort :=
  match offset % portCount m with
  | 0 => .status
  | _ => .data

/-- The offset at which the host writes command bytes (R41). -/
def commandOffset (m : PortMap) : Nat :=
  match m with
  | .a0 => 1
  | .threePort => 2

/-- The offset at which the host writes parameter bytes (R41). -/
def parameterOffset (m : PortMap) : Nat :=
  match m with
  | .a0 => 0
  | .threePort => 1

/-- A byte written with a tag (R85): turn the FIFO to WRITE, enqueue, drain. Every entry the drain can take was in
the queue when it began, so the queue's length bounds it. -/
def acceptByte (b : Byte) (isCommand : Bool) (s : State) : Result State :=
  let s1 := (s.setDirection .write).enqueue b isCommand
  drain s1.fifo.length s1

/-- `PortWrite(offset, b)` (R85, R41). -/
def portWrite (offset : Nat) (b : Byte) (s : State) : Result State :=
  match writePortAt s.cfg.portMap offset with
  | .parameter => acceptByte b false s
  | .command => acceptByte b true s
  | .ignored => .next (s.raiseLog .badPort (BitVec.ofNat 8 (offset % portCount s.cfg.portMap)))

/-- The byte of a data-port read that dequeues nothing (R88, U5). A free draw is counted (log 7). -/
def State.openBusRead (s : State) : State :=
  match s.cfg.openBus with
  | .fixed b => s.returnByte b
  | .free => { s.returnByte (Config.freeOpenBus s.freeCount) with freeCount := s.freeCount + 1 }

/-- A data-port read (R88). -/
def State.dataRead (s : State) : State :=
  match s.fifoDir, s.dequeue with
  | .read, some (e, s1) => s1.returnByte e.byte
  | _, _ => s.openBusRead

/-- `PortRead(offset)` (R87, R88, R41). -/
def portRead (offset : Nat) (s : State) : State :=
  match readPortAt s.cfg.portMap offset with
  | .status => s.returnByte s.sr
  | .data => s.dataRead

/-! ## Events (R8) -/

/-- What one event does, whole (R8). -/
def handleEvent (e : Event) (s : State) : Result State :=
  match e with
  | .portWrite offset b => portWrite offset b s
  | .portRead offset => .next (portRead offset s)
  | .tick => .next s.tick
  | .renderLine y => .next (s.renderLine y)
  | .renderFrame => .next s.renderFrame
  | .extVsync => .next s.extVsync
  | .lightPen a => .next (s.lightPenDetect a)
  | .dmaEnd => .next s.dmaEnd
  | .memStore a v => .next (s.memWrite a v)

/-- The next event, taken from the pending ones; with none pending the controller waits for its next call and
nothing changes (R269, log 2). -/
def runNext (s : State) : Result State :=
  match s.events with
  | [] => .next s
  | e :: rest => handleEvent e { s with events := rest }

/-! ## Programs (R60, R70) -/

/-- The port writes by which a host sends a command and its parameter bytes (R60, R70). -/
def commandWrites (m : PortMap) (c : Command) : List Event :=
  .portWrite (commandOffset m) (encode c.instr) :: c.params.map (fun b => .portWrite (parameterOffset m) b)

/-- The state with the next instruction placed where it is fetched from: the host's write of the command byte is
the next event. -/
def State.placeCommand (s : State) (b : Byte) : State :=
  { s with events := .portWrite (commandOffset s.cfg.portMap) b :: s.events }

end Sys2Proof.Machine
end

