-- ==== Sys2Proof/Machine/Step.lean ====
section
/-! DEFINITION. One step of the machine, and the state with an instruction where the next step fetches it. -/

namespace Sys2Proof.Machine

/-- One step: the next pending event, whole (R8). -/
def step (s : State) : Host.Outcome State Fault Refusal := runNext s

/-- `s` with the table's word `w` as the very next command byte the host writes (log 1). -/
def State.withFetchWord (s : State) (nbits w : Nat) : State := s.placeCommand (tableByte nbits w)

end Sys2Proof.Machine
end

