-- ==== Sys2Proof/Safety.lean ====
section
/-! DEFINITION. What counts as a safe run, in the terms claims use: the invariants of the controller's state, the
exact port boundary between two events, and the mark of R160. -/

namespace Sys2Proof

/-! ## Parameters of a command -/

/-- `n` parameter bytes that all belong to the command (R63, R93 to R95): none of them is stray. -/
def Instr.takes (i : Instr) (n : Nat) : Bool :=
  match i with
  | .reset | .sync _ => decide (n ≤ 8)
  | .cchar => decide (n ≤ 3)
  | .zoom | .pitch => decide (n ≤ 1)
  | .curs => decide (n ≤ 4)
  | .mask => decide (n ≤ 2)
  | .figs => decide (n ≤ 11)
  | .pram _ | .wdat .word _ | .wdat .lowByte _ | .wdat .highByte _ => true
  | .vsync _ | .start | .bctrl _ | .wdat .invalid _ | .rdat _ _ | .figd | .gchrd | .dmar _ _ | .dmaw _ _ | .curd
  | .lprd => decide (n = 0)

/-- A command cut short after `n` parameter bytes holds bytes it has not applied or has not reached its count (R91). -/
def Instr.cutShort (i : Instr) (n : Nat) : Bool :=
  match i with
  | .sync _ => decide (n < 8)
  | .cchar => decide (n < 3)
  | .zoom | .pitch => decide (n < 1)
  | .curs => decide (n < 4)
  | .mask => decide (n < 2)
  | .reset => decide (1 ≤ n) && decide (n ≤ 7)
  | .wdat .word _ => decide (n % 2 = 1)
  | .figs => decide (2 ≤ n) && decide (n % 2 = 0)
  | .pram _ | .wdat .lowByte _ | .wdat .highByte _ | .wdat .invalid _ | .vsync _ | .start | .bctrl _ | .rdat _ _
  | .figd | .gchrd | .dmar _ _ | .dmaw _ _ | .curd | .lprd => false

end Sys2Proof

namespace Sys2Proof.Machine

/-! ## Invariants -/

/-- The FIFO and its status bits between two events: at most 16 entries (R11), FE and FF consistent with the
occupancy (R14), DR exactly when a result byte can be read (R14 and its converse), a WRITE queue empty (R86),
only result bytes in a READ queue (R12). -/
abbrev State.FifoOk (s : State) : Prop :=
  s.fifo.length ≤ fifoDepth
    ∧ s.status .fe = decide (s.fifo.length = 0)
    ∧ s.status .ff = decide (s.fifo.length = fifoDepth)
    ∧ s.status .dr = decide (s.fifoDir = .read ∧ 0 < s.fifo.length)
    ∧ (s.fifoDir = .write → s.fifo = [])
    ∧ ∀ e ∈ s.fifo, e.isCommand = false

/-- What may be in flight while the dispatcher awaits: a command that takes parameters, holding fewer than would
have ended it or its group (R91 to R95). -/
def Dispatcher.inFlightOk (d : Dispatcher) : Bool :=
  match d.cmd with
  | .command .reset => decide (d.pcount.toNat < 8)
  | .command .sync  => decide (d.pcount.toNat < 8)
  | .command .cchar => decide (d.pcount.toNat < 3)
  | .command .zoom  => decide (d.pcount.toNat < 1)
  | .command .pitch => decide (d.pcount.toNat < 1)
  | .command .curs  => decide (d.pcount.toNat < 4)
  | .command .mask  => decide (d.pcount.toNat < 2)
  | .command .pram  => decide (d.pcount.toNat < 1)
  | .command .figs  => decide (d.pcount.toNat < 11)
  | .command .wdat  => decide (d.xtype ≠ .invalid) && decide (d.pcount.toNat < (wdatGroup d.xtype).toNat)
  | .command .vsync | .command .start | .command .bctrl | .command .rdat | .command .figd | .command .gchrd
  | .command .dmar | .command .dmaw | .command .curd | .command .lprd | .none | .invalid => false

/-- The dispatcher: `cmd` is the decoded identity of `cr` once a command byte has been dispatched (R16), `pr[0]` its
copy (R17), `ra_ptr` at most 16 (R18), and in AWAIT a command that can take a parameter (R16, R92). -/
abbrev Dispatcher.Ok (d : Dispatcher) : Prop :=
  (d.cmd = .none ∨ d.cmd = cmdOf d.cr)
    ∧ prGet d.pr 0#4 = d.cr
    ∧ d.raPtr.toNat ≤ 16
    ∧ (d.phase = .await → d.inFlightOk = true)

/-- The raster position lies within the totals (R223), and a controller that holds is a slave at (0,0) (R229). -/
abbrev State.RasterOk (s : State) : Prop :=
  s.raster.hnext.toNat < s.geom.htc
    ∧ s.raster.vnext.toNat < s.geom.vtc
    ∧ (s.raster.vwait = true → s.master = false ∧ s.raster.hnext = 0#9 ∧ s.raster.vnext = 0#11)

/-- The geometry fields are as created or in the ranges a SYNC leaves (R21). -/
abbrev Geometry.Ok (g : Geometry) : Prop :=
  g = State.reset.geom
    ∨ (2 ≤ g.aw.toNat ∧ g.aw.toNat ≤ 257) ∧ (1 ≤ g.hs.toNat ∧ g.hs.toNat ≤ 32)
      ∧ (1 ≤ g.hfp.toNat ∧ g.hfp.toNat ≤ 64) ∧ (1 ≤ g.hbp.toNat ∧ g.hbp.toNat ≤ 64)

/-- The register-file fields that hold a value plus 1 stay in their ranges (R21, R24, R25). -/
abbrev State.RegsOk (s : State) : Prop :=
  s.geom.Ok
    ∧ (1 ≤ s.cursor.lr.toNat ∧ s.cursor.lr.toNat ≤ 32)
    ∧ (1 ≤ s.zoom.disp.toNat ∧ s.zoom.disp.toNat ≤ 16)
    ∧ (1 ≤ s.zoom.gchr.toNat ∧ s.zoom.gchr.toNat ≤ 16)

/-- Display memory keeps its canonical form and lists no byte past its end (R44, R45, log 6). -/
abbrev State.MemOk (s : State) : Prop :=
  Memory.wf s.mem ∧ ∀ c ∈ s.mem, c.1 < 2 * s.cfg.vramWords

/-- The levels a line was driven to, in order. -/
def levelsOf (ls : List LineEvent) (n : LineName) : List Bool :=
  (ls.filter (fun e => e.name = n)).map (fun e => e.level)

/-- A run of levels that starts at `b` changes at every entry. -/
def alternatesFrom : Bool → List Bool → Bool
  | _, [] => true
  | b, l :: ls => (l != b) && alternatesFrom l ls

/-- A line that began at 0 was driven only when its level changed, and last to `level` (R256). -/
abbrev lineFollows (ls : List LineEvent) (n : LineName) (level : Bool) : Prop :=
  alternatesFrom false (levelsOf ls n) = true ∧ (levelsOf ls n).getLastD false = level

/-- The output lines (R256): each was driven when and only when its level changed and stands at its stored level;
INT was never driven; `SR.DMA` is the DRQ level (R165 to R167); `SR.DIP` is 0 (R157). -/
abbrev State.LinesOk (s : State) : Prop :=
  lineFollows s.out.lines .vsync (s.status .vsy)
    ∧ lineFollows s.out.lines .hsync s.raster.hsyncLevel
    ∧ lineFollows s.out.lines .blank (s.status .hbl)
    ∧ lineFollows s.out.lines .drq s.drq
    ∧ levelsOf s.out.lines .int = []
    ∧ s.status .dma = s.drq
    ∧ s.status .dip = false

/-- Every invariant of the state between two events. -/
abbrev State.Ok (s : State) : Prop :=
  s.FifoOk ∧ s.disp.Ok ∧ s.RasterOk ∧ s.RegsOk ∧ s.MemOk ∧ s.LinesOk

/-! ## Runs -/

/-- The part of `FifoOk` that a port write needs: a WRITE queue is empty between two events (R86). -/
abbrev State.WriteReady (s : State) : Prop := s.fifoDir = .write → s.fifo = []

/-- The command in flight, if any, could be ended by a command byte without an underrun entry (R91). -/
abbrev State.Settled (s : State) : Prop := s.disp.phase = .await → s.disp.incomplete = false

/-- `s` with events pending before its own. -/
def State.feed (s : State) (es : List Event) : State := { s with events := es ++ s.events }

/-- The port writes of a host program, command by command (R60, R70). -/
def programWrites (m : PortMap) (cs : List Command) : List Event := cs.flatMap (commandWrites m)

/-- `Pk`, the k-th parameter byte of the command in flight, as a number (R6, R64). -/
def State.param (s : State) (k : BitVec 4) : Nat := (prGet s.disp.pr k).toNat

/-- The run has dispatched no FIGD under `FIGD_POLICY = REFUSE` (R160): claims about its values may be made. -/
def State.claimable (s : State) : Bool := !s.runRefused

/-- An entry a run may hold although the host kept the protocol: bytes RDAT could not queue (R287), a zero vertical
total (R113), FIGD (R160). Every other code is a protocol violation (R252). -/
def LogEntry.tolerated (e : LogEntry) : Bool :=
  e.code == .fifoOverflow || e.code == .configClamp || e.code == .unspecifiedFigd

/-! ## FIFO traffic (R84) -/

/-- A call of one of the two FIFO operations between two clears. -/
inductive FifoCall where
  | enqueue (b : Byte) (isCommand : Bool)
  | dequeue
  deriving DecidableEq, Repr

/-- What a sequence of calls did: the entries that did not overflow, the entries returned, and the state left. -/
structure FifoRun where
  accepted : List FifoEntry
  returned : List FifoEntry
  final    : State
  deriving DecidableEq, Repr

/-- A sequence of FIFO calls. -/
def fifoRun : List FifoCall → State → FifoRun
  | [], s => ⟨[], [], s⟩
  | .enqueue b c :: cs, s =>
    let r := fifoRun cs (s.enqueue b c)
    if s.fifo.length = fifoDepth then r else { r with accepted := ⟨b, c⟩ :: r.accepted }
  | .dequeue :: cs, s =>
    match s.dequeue with
    | none => fifoRun cs s
    | some (e, t) =>
      let r := fifoRun cs t
      { r with returned := e :: r.returned }

end Sys2Proof.Machine
end

