-- ==== Sys2Proof/Certificates/Slice0/Obligations.lean ====
section
/-! DEFINITION. The statements for the provers. `s.param k` is the k-th parameter byte as a number, `s.feed es` is
`s` with the events `es` pending first, and `core.run k` is k steps. That an instruction is a command byte and `exec` the
dispatcher's case for it, and that events are pending data of the state, are the model's choices (log 1, log 2); the
numbers the spec gives from general knowledge are taken as it gives them (log 16). -/

open Sys2Proof Sys2Proof.Machine

/-! ## Encoding (R60 to R67) -/

/-- One byte of every row, written from the formats of R61 and the table of R66 (log 16), decodes to its command. -/
def Obligations.DecodesGivenCommandBytes : Prop :=
  decode 0b00000000#8 = .ok .reset ∧ decode 0b00001111#8 = .ok (.sync true)
    ∧ decode 0b01101110#8 = .ok (.vsync false) ∧ decode 0b01001011#8 = .ok .cchar
    ∧ decode 0b01101011#8 = .ok .start ∧ decode 0b00001101#8 = .ok (.bctrl true)
    ∧ decode 0b01000110#8 = .ok .zoom ∧ decode 0b01000111#8 = .ok .pitch
    ∧ decode 0b01001001#8 = .ok .curs ∧ decode 0b01111110#8 = .ok (.pram 14#4)
    ∧ decode 0b01001010#8 = .ok .mask ∧ decode 0b01001100#8 = .ok .figs
    ∧ decode 0b00110001#8 = .ok (.wdat .lowByte .complement) ∧ decode 0b10100011#8 = .ok (.rdat .word .set)
    ∧ decode 0b01101100#8 = .ok .figd ∧ decode 0b01101000#8 = .ok .gchrd
    ∧ decode 0b10101110#8 = .ok (.dmar .invalid .reset) ∧ decode 0b00111100#8 = .ok (.dmaw .highByte .replace)
    ∧ decode 0b11100000#8 = .ok .curd ∧ decode 0b11000000#8 = .ok .lprd

/-- Decoding an encoded instruction gives it back, for every instruction and every operand value, from the byte and
from the table's numbering of it; and a byte that decodes to an instruction is that instruction's encoding, so no bit
of a command byte is dropped. -/
def Obligations.DecodeAndEncodeAgree : Prop :=
  (∀ i : Instr, decode (encode i) = .ok i ∧ decodeTableWord 8 (encode i).toNat = some i)
    ∧ ∀ (b : Byte) (i : Instr), decode b = .ok i → encode i = b

/-- Decoding is the table of R66 whatever the order of its rows (R62), and exactly the bytes R67 lists match none. -/
def Obligations.DecodeFollowsTable : Prop :=
  (∀ b : Byte, ∀ r ∈ opTable, r.matchesByte b = true → decode b = .ok (instrOf r.name b))
    ∧ ∀ b : Byte, decode b = .error (.invalid b) ↔
        (0x01 ≤ b.toNat ∧ b.toNat ≤ 0x0B) ∨ (0x10 ≤ b.toNat ∧ b.toNat ≤ 0x1F) ∨ (0x40 ≤ b.toNat ∧ b.toNat ≤ 0x45)
          ∨ b.toNat = 0x48 ∨ (0x4D ≤ b.toNat ∧ b.toNat ≤ 0x67) ∨ b.toNat = 0x69 ∨ b.toNat = 0x6A ∨ b.toNat = 0x6D
          ∨ (0x80 ≤ b.toNat ∧ b.toNat ≤ 0x9F) ∨ (0xC1 ≤ b.toNat ∧ b.toNat ≤ 0xDF) ∨ 0xE1 ≤ b.toNat

/-! ## The FIFO (R80 to R84) -/

/-- R80: on a full queue the byte is lost and logged and nothing else changes; otherwise it is appended, FE is
cleared, FF is set when the queue now holds 16, DR is set in READ direction, and nothing else changes. -/
def Obligations.EnqueueEffect : Prop :=
  ∀ (s : State) (b : Byte) (c : Bool),
    (s.fifo.length = 16 →
      s.enqueue b c = { s with out := { s.out with log := s.out.log ++ [⟨.fifoOverflow, b⟩] } })
    ∧ (s.fifo.length ≠ 16 → ∃ sr : Byte,
        s.enqueue b c = { s with fifo := s.fifo ++ [⟨b, c⟩], sr := sr }
          ∧ statusGet sr .fe = false
          ∧ statusGet sr .ff = (s.status .ff || decide (s.fifo.length = 15))
          ∧ statusGet sr .dr = (s.status .dr || decide (s.fifoDir = .read))
          ∧ ∀ x : StatusBit, x ≠ .fe → x ≠ .ff → x ≠ .dr → statusGet sr x = s.status x)

/-- R81: `none` and no change on an empty queue; otherwise the oldest entry, FF cleared, and FE set and DR cleared
when the queue is now empty, and nothing else changes. -/
def Obligations.DequeueEffect : Prop :=
  ∀ s : State,
    (s.fifo = [] → s.dequeue = none)
    ∧ ∀ e q, s.fifo = e :: q → ∃ sr : Byte,
        s.dequeue = some (e, { s with fifo := q, sr := sr })
          ∧ statusGet sr .ff = false
          ∧ statusGet sr .fe = (s.status .fe || decide (q = []))
          ∧ statusGet sr .dr = (s.status .dr && decide (q ≠ []))
          ∧ ∀ x : StatusBit, x ≠ .fe → x ≠ .ff → x ≠ .dr → statusGet sr x = s.status x

/-- R82: the present direction changes nothing, even with entries queued; the other one leaves an empty queue in the
new direction, with FE set and FF and DR cleared, and changes nothing else. -/
def Obligations.SetDirectionEffect : Prop :=
  ∀ (s : State) (d : FifoDir),
    (d = s.fifoDir → s.setDirection d = s)
    ∧ (d ≠ s.fifoDir → ∃ sr : Byte,
        s.setDirection d = { s with fifo := [], fifoDir := d, sr := sr }
          ∧ statusGet sr .fe = true ∧ statusGet sr .ff = false ∧ statusGet sr .dr = false
          ∧ ∀ x : StatusBit, x ≠ .fe → x ≠ .ff → x ≠ .dr → statusGet sr x = s.status x)

/-- R84, for every sequence of enqueues and dequeues: entries come out in the order they went in, the depth is what
went in less what came out, and FE and FF say when it is 0 and 16. -/
def Obligations.FifoTrafficLaw : Prop :=
  ∀ (cs : List FifoCall) (s : State),
    s.fifo.length ≤ 16 → s.status .fe = decide (s.fifo.length = 0) → s.status .ff = decide (s.fifo.length = 16) →
    let r := fifoRun cs s
    s.fifo ++ r.accepted = r.returned ++ r.final.fifo
      ∧ r.final.fifo.length + r.returned.length = s.fifo.length + r.accepted.length
      ∧ r.final.fifo.length ≤ 16
      ∧ r.final.status .fe = decide (r.final.fifo.length = 0)
      ∧ r.final.status .ff = decide (r.final.fifo.length = 16)
      ∧ r.final.fifoDir = s.fifoDir

/-! ## Ports (R41, R85 to R88) -/

/-- R87, R13: a status read, in either port map, returns SR and changes nothing else; bit k of the byte is the field
the table of R13 gives (the spec's own numbering, from general knowledge, log 16). -/
def Obligations.StatusReadEffect : Prop :=
  ∀ (s : State) (rest : List Event), s.events = .portRead 0 :: rest →
    step s = .next { s with events := rest, out := { s.out with reads := s.out.reads ++ [s.sr] } }
      ∧ s.status .dr = decide (s.sr.toNat % 2 = 1) ∧ s.status .ff = decide (s.sr.toNat / 2 % 2 = 1)
      ∧ s.status .fe = decide (s.sr.toNat / 4 % 2 = 1) ∧ s.status .dip = decide (s.sr.toNat / 8 % 2 = 1)
      ∧ s.status .dma = decide (s.sr.toNat / 16 % 2 = 1) ∧ s.status .vsy = decide (s.sr.toNat / 32 % 2 = 1)
      ∧ s.status .hbl = decide (s.sr.toNat / 64 % 2 = 1) ∧ s.status .lpd = decide (s.sr.toNat / 128 = 1)

/-- R88: a data read returns and removes the head of a non-empty READ queue; any other data read returns the open-bus
byte, a parameter or a free draw (log 7), and changes neither the FIFO nor the log. -/
def Obligations.DataReadEffect : Prop :=
  ∀ (s : State) (offset : Nat) (rest : List Event),
    s.events = .portRead offset :: rest → readPortAt s.cfg.portMap offset = .data →
    (∀ e q, s.fifoDir = .read → s.fifo = e :: q → ∃ sr : Byte,
      step s = .next
        { s with events := rest, fifo := q, sr := sr, out := { s.out with reads := s.out.reads ++ [e.byte] } }
        ∧ statusGet sr .ff = false ∧ (q = [] → statusGet sr .fe = true ∧ statusGet sr .dr = false)
        ∧ (q ≠ [] → statusGet sr .fe = s.status .fe ∧ statusGet sr .dr = s.status .dr)
        ∧ ∀ x : StatusBit, x ≠ .fe → x ≠ .ff → x ≠ .dr → statusGet sr x = s.status x)
    ∧ (∀ b, (s.fifoDir = .write ∨ s.fifo = []) → s.cfg.openBus = .fixed b →
      step s = .next { s with events := rest, out := { s.out with reads := s.out.reads ++ [b] } })
    ∧ ((s.fifoDir = .write ∨ s.fifo = []) → s.cfg.openBus = .free → ∃ b,
      step s = .next
        { s with
          events := rest, out := { s.out with reads := s.out.reads ++ [b] }, freeCount := s.freeCount + 1 })

/-- R41, R252 (f): under `THREE_PORT` a write to offset 0 is logged with the offset and changes nothing else, not even
the direction. -/
def Obligations.BadPortWriteIsLogged : Prop :=
  ∀ (s : State) (b : Byte) (rest : List Event),
    s.events = .portWrite 0 b :: rest → s.cfg.portMap = .threePort →
    step s = .next { s with events := rest, out := { s.out with log := s.out.log ++ [⟨.badPort, 0#8⟩] } }

/-- R286, R85: whatever the byte and the offset, a write that finds unread results does what the same write does with
an empty WRITE queue in their place: the results are gone, DR is 0, and the discarding adds no log entry. -/
def Obligations.WriteDiscardsUnreadResults : Prop :=
  ∀ (s : State) (offset : Nat) (b : Byte) (rest : List Event),
    s.events = .portWrite offset b :: rest → writePortAt s.cfg.portMap offset ≠ .ignored → s.fifoDir = .read →
    ∃ sr : Byte,
      step s = step { s with fifo := [], fifoDir := .write, sr := sr }
        ∧ statusGet sr .dr = false ∧ statusGet sr .fe = true ∧ statusGet sr .ff = false
        ∧ ∀ x : StatusBit, x ≠ .fe → x ≠ .ff → x ≠ .dr → statusGet sr x = s.status x

/-! ## Dispatch (R90 to R99) -/

/-- A step runs the decoded instruction (R85, R86, R91; the model's choice of what `exec` is, log 1): a command byte that decodes to `i`, written to the command
port, is the meaning of `i` from the state in which the byte has been recorded in `cr` and `pr[0]`, the parameter
registers are cleared, and an incomplete command in flight has been logged (R96). -/
def Obligations.StepRunsDecodedCommand : Prop :=
  ∀ (s : State) (offset : Nat) (b : Byte) (rest : List Event) (i : Instr),
    s.WriteReady → s.events = .portWrite offset b :: rest → writePortAt s.cfg.portMap offset = .command →
    decode b = .ok i →
    step s = exec i
      { s with
        events := rest, fifo := [], fifoDir := .write, sr := statusCleared s.sr
        disp := { s.disp with
          cr := b, cmd := .command i.mnemonic, pcount := 0#4
          pr := prLoad s.cfg.prSize b }
        out := { s.out with
          log := s.out.log ++
            if s.disp.phase = .await ∧ s.disp.incomplete = true then [⟨.paramUnderrun, s.disp.cr⟩] else [] } }

/-- A step runs the instruction in flight on a parameter byte (R85, R86, R92; log 1): with `cr` the encoding of `i` and the
dispatcher in AWAIT, a byte written to the parameter port is the meaning of `i` from the state in which the byte is
stored in the next parameter register. -/
def Obligations.StepRunsParameterByte : Prop :=
  ∀ (s : State) (offset : Nat) (b : Byte) (rest : List Event) (i : Instr),
    s.WriteReady → s.events = .portWrite offset b :: rest → writePortAt s.cfg.portMap offset = .parameter →
    s.disp.phase = .await → s.disp.cr = encode i → s.disp.cmd = .command i.mnemonic →
    step s = exec i
      { s with
        events := rest, fifo := [], fifoDir := .write, sr := statusCleared s.sr
        disp := { s.disp with
          pcount := s.disp.pcount + 1#4, pr := prSet s.disp.pr (s.disp.pcount + 1#4) b } }

/-- R97: an unknown command byte is recorded by the dispatcher, abandons the command in flight, leaves the dispatcher
idle, makes one log entry of its own and changes nothing else but the status bits of the FIFO traffic. -/
def Obligations.UnknownCommandByteEffect : Prop :=
  ∀ (s : State) (offset : Nat) (b : Byte) (rest : List Event) (e : DecodeError),
    s.WriteReady → s.events = .portWrite offset b :: rest → writePortAt s.cfg.portMap offset = .command →
    decode b = .error e →
    step s = .next
      { s with
        events := rest, fifo := [], fifoDir := .write, sr := statusCleared s.sr
        disp := { s.disp with
          cr := b, cmd := .invalid, pcount := 0#4, phase := .idle
          pr := prLoad s.cfg.prSize b }
        out := { s.out with
          log := s.out.log ++
            (if s.disp.phase = .await ∧ s.disp.incomplete = true then [⟨.paramUnderrun, s.disp.cr⟩] else [])
            ++ [⟨.unknownOpcode, b⟩] } }

/-- R98: a parameter byte that finds the dispatcher idle is discarded with one log entry; no other state changes but
the status bits of the FIFO traffic. -/
def Obligations.StrayParameterEffect : Prop :=
  ∀ (s : State) (offset : Nat) (b : Byte) (rest : List Event),
    s.WriteReady → s.events = .portWrite offset b :: rest → writePortAt s.cfg.portMap offset = .parameter →
    s.disp.phase = .idle →
    step s = .next
      { s with
        events := rest, fifo := [], fifoDir := .write, sr := statusCleared s.sr
        out := { s.out with log := s.out.log ++ [⟨.strayParam, b⟩] } }

/-- R93, R96, R289: a fixed-arity command of arity `n` followed by at most `n` parameter bytes. With fewer than `n` it
has changed no register, no parameter RAM byte and no memory: the dispatcher awaits with exactly those bytes and counts
the command incomplete, so that `StepRunsDecodedCommand` logs it when a command byte abandons it. With all `n` it is
applied once, in the step that stores the last byte, from `pr[1..n]`, with nothing but the dispatcher, the FIFO traffic
and the log of an abandoned command different before that step, and the dispatcher is idle after it. -/
def Obligations.FixedArityCommandsApplyOnce : Prop :=
  ∀ (s : State) (i : Instr) (n : Nat) (ps : List Byte),
    s.WriteReady → i.arity = .fixed n → ps.length ≤ n →
    ∃ d : Dispatcher,
      let u : State :=
        { s with
          fifo := [], fifoDir := .write, sr := statusCleared s.sr, disp := d
          out := { s.out with
            log := s.out.log ++
              if s.disp.phase = .await ∧ s.disp.incomplete = true then [⟨.paramUnderrun, s.disp.cr⟩] else [] } }
      let sent := core.run (1 + ps.length) (s.feed (commandWrites s.cfg.portMap ⟨i, ps⟩))
      d.phase = .await ∧ d.cr = encode i ∧ d.cmd = .command i.mnemonic ∧ d.pcount.toNat = ps.length
        ∧ d.raPtr = s.disp.raPtr ∧ d.xtype = s.disp.xtype ∧ d.mod = s.disp.mod ∧ prGet d.pr 0#4 = encode i
        ∧ (∀ k : BitVec 4, k ≠ 0#4 → prGet d.pr k = ps.getD (k.toNat - 1) 0#8)
        ∧ (ps.length < n → sent = .next u ∧ d.incomplete = true)
        ∧ (ps.length = n → ∃ t, sent = .next t ∧ exec i u = .next t ∧ t.disp = { d with phase := .idle })

/-- R91, R96, R63: a command with any number of the parameter bytes it takes, and then any command byte. The step of that
byte first logs an underrun with the abandoned command's byte exactly when the command was cut short, as
`Instr.cutShort` writes out from R91: below its count, inside RESET's eight, half a word of WDAT, half a group of FIGS;
what it logs after that is no underrun. -/
def Obligations.AbandonedCommandsAreLogged : Prop :=
  ∀ (s : State) (i : Instr) (ps : List Byte) (b : Byte),
    s.WriteReady → i.takes ps.length = true →
    let sent := commandWrites s.cfg.portMap ⟨i, ps⟩
    ∃ (u t : State) (es : List LogEntry),
      core.run (1 + ps.length) (s.feed sent) = .next u
        ∧ core.run (2 + ps.length) (s.feed (sent ++ [.portWrite (commandOffset s.cfg.portMap) b])) = .next t
        ∧ t.out.log = u.out.log ++ (if i.cutShort ps.length = true then [⟨.paramUnderrun, encode i⟩] else []) ++ es
        ∧ ∀ e ∈ es, e.code ≠ .paramUnderrun

/-! ## Display control (R110 to R119) -/

/-- RESET, R110, R95, R282: at the command byte `de`, `ead`, `dad`, `mask` and `ra[0..2]` are 0, `ra[3]` is `RESET_RA3`,
the dispatcher awaits, and nothing else changes; at the eighth parameter it does what SYNC does with display-enable 0;
at any other parameter nothing. Sent twice in a row it leaves the same state, log included, as sent once. -/
def Obligations.ResetCompletes : Prop :=
  ∀ s : State,
    (s.disp.pcount = 0#4 → ∃ ra : Vector Byte 16,
      exec .reset s = .next
        { s with
          de := false, addr := { ead := 0#18, dad := 0#4, mask := 0#16 }, ra := ra
          disp := { s.disp with phase := .await } }
        ∧ bankGet ra 0#4 = 0#8 ∧ bankGet ra 1#4 = 0#8 ∧ bankGet ra 2#4 = 0#8 ∧ bankGet ra 3#4 = s.cfg.resetRa3
        ∧ ∀ k : BitVec 4, 4 ≤ k.toNat → bankGet ra k = bankGet s.ra k)
    ∧ (s.disp.pcount = 8#4 → exec .reset s = exec (.sync false) s)
    ∧ (s.disp.pcount ≠ 0#4 → s.disp.pcount ≠ 8#4 → exec .reset s = .next s)
    ∧ (s.WriteReady → ∃ t,
        core.run 1 (s.feed (programWrites s.cfg.portMap [⟨.reset, []⟩])) = .next t
          ∧ core.run 2 (s.feed (programWrites s.cfg.portMap [⟨.reset, []⟩, ⟨.reset, []⟩])) = .next t)

/-- SYNC, R111 to R113, R222, R228: at the eighth parameter the mode byte and the eight geometry fields have the
numbers of the R112 layout, `de` is the operand, the raster is at (0,0) and not held, a vertical total of 0 is logged
once, the horizontal total is at least 5, and nothing else changes: not the status bits, the line levels, the blink
counter, the pitch or the cursor. -/
def Obligations.SyncCompletes : Prop :=
  ∀ (s : State) (f : Bool), s.disp.pcount = 8#4 →
    ∃ g : Geometry,
      exec (.sync f) s = .next
        { s with
          geom := g, de := f, raster := { s.raster with hnext := 0#9, vnext := 0#11, vwait := false }
          disp := { s.disp with phase := .idle }
          out := { s.out with log := s.out.log ++
            if g.vs.toNat + g.vbp.toNat + g.al.toNat + g.vfp.toNat = 0 then [⟨.configClamp, 0#8⟩] else [] } }
        ∧ g.mode.toNat = s.param 1#4
        ∧ g.aw.toNat = s.param 2#4 + 2
        ∧ g.hs.toNat = s.param 3#4 % 32 + 1
        ∧ g.vs.toNat = 8 * (s.param 4#4 % 4) + s.param 3#4 / 32
        ∧ g.hfp.toNat = s.param 4#4 / 4 + 1
        ∧ g.hbp.toNat = s.param 5#4 % 64 + 1
        ∧ g.vfp.toNat = s.param 6#4 % 64
        ∧ g.al.toNat = 256 * (s.param 8#4 % 4) + s.param 7#4
        ∧ g.vbp.toNat = s.param 8#4 / 4
        ∧ 5 ≤ g.htc ∧ g.htc ≤ 417 ∧ 1 ≤ g.vtc ∧ g.vtc ≤ 1180

/-- VSYNC, START, BCTRL, R114, R116, R117: the one bit each sets (VSYNC as master also releases a held field), the
dispatcher idle, and nothing else. -/
def Obligations.ModeSwitchesComplete : Prop :=
  ∀ (s : State) (f : Bool),
    exec (.vsync f) s = .next
      { s with
        master := f, raster := { s.raster with vwait := !f && s.raster.vwait }
        disp := { s.disp with phase := .idle } }
    ∧ exec .start s = .next { s with de := true, disp := { s.disp with phase := .idle } }
    ∧ exec (.bctrl f) s = .next { s with de := f, disp := { s.disp with phase := .idle } }

/-- CCHAR, R115: at the third parameter the six cursor fields have the numbers of the R64 layout and nothing else
changes. -/
def Obligations.CcharCompletes : Prop :=
  ∀ s : State, s.disp.pcount = 3#4 →
    ∃ c : CursorRegs,
      exec .cchar s = .next { s with cursor := c, disp := { s.disp with phase := .idle } }
        ∧ c.lr.toNat = s.param 1#4 % 32 + 1
        ∧ c.dc = decide (128 ≤ s.param 1#4)
        ∧ c.ctop.toNat = s.param 2#4 % 32
        ∧ c.sc = decide (s.param 2#4 / 32 % 2 = 1)
        ∧ c.br.toNat = 4 * (s.param 3#4 % 8) + s.param 2#4 / 64
        ∧ c.cbot.toNat = s.param 3#4 / 8

/-- ZOOM, PITCH and MASK, R118, R119, R135: at its last parameter each stores the two nibbles plus 1, the byte, or the
two bytes with the low one first, and nothing else changes. -/
def Obligations.ZoomPitchAndMaskComplete : Prop :=
  ∀ s : State,
    (s.disp.pcount = 1#4 → ∃ z : ZoomRegs,
      exec .zoom s = .next { s with zoom := z, disp := { s.disp with phase := .idle } }
        ∧ z.disp.toNat = s.param 1#4 / 16 + 1 ∧ z.gchr.toNat = s.param 1#4 % 16 + 1)
    ∧ (s.disp.pcount = 1#4 → ∃ p : Byte,
      exec .pitch s = .next { s with pitch := p, disp := { s.disp with phase := .idle } } ∧ p.toNat = s.param 1#4)
    ∧ (s.disp.pcount = 2#4 → ∃ m : Word,
      exec .mask s = .next { s with addr := { s.addr with mask := m }, disp := { s.disp with phase := .idle } }
        ∧ m.toNat = s.param 1#4 + 256 * s.param 2#4)

/-! ## Drawing set-up (R130 to R136) -/

/-- CURS, R130, R131: the byte 0x49 with four parameters; at the fourth `ead` and `dad` have the numbers of the layout
and nothing else changes, `mask` included; before it nothing is written. -/
def Obligations.CursCompletes : Prop :=
  decode 0x49#8 = .ok .curs ∧ Instr.arity .curs = .fixed 4 ∧
  ∀ s : State,
    (s.disp.pcount = 4#4 → ∃ (ead : VAddr) (dad : BitVec 4),
      exec .curs s = .next
        { s with addr := { s.addr with ead := ead, dad := dad }, disp := { s.disp with phase := .idle } }
        ∧ ead.toNat = s.param 1#4 + 256 * s.param 2#4 + 65536 * (s.param 3#4 % 4)
        ∧ dad.toNat = s.param 4#4 / 16)
    ∧ (s.disp.pcount = 0#4 → exec .curs s = .next { s with disp := { s.disp with phase := .await } })
    ∧ (s.disp.pcount ≠ 0#4 → s.disp.pcount ≠ 4#4 → exec .curs s = .next s)

/-- PRAM, R133: at the command byte the pointer is the operand and the dispatcher awaits; each parameter byte is stored
at the pointer, which then moves up; at 16 the byte is ignored without a log entry; nothing else changes. -/
def Obligations.PramCompletes : Prop :=
  ∀ (s : State) (n : BitVec 4),
    (s.disp.pcount = 0#4 → ∃ p : BitVec 5,
      exec (.pram n) s = .next { s with disp := { s.disp with raPtr := p, phase := .await } } ∧ p.toNat = n.toNat)
    ∧ (s.disp.pcount ≠ 0#4 → s.disp.raPtr.toNat ≤ 15 → ∃ (p : BitVec 5) (ra : Vector Byte 16),
        exec (.pram n) s = .next { s with ra := ra, disp := { s.disp with raPtr := p, pcount := 0#4 } }
          ∧ p.toNat = s.disp.raPtr.toNat + 1
          ∧ ∀ k : BitVec 4, bankGet ra k =
              if k.toNat = s.disp.raPtr.toNat then prGet s.disp.pr s.disp.pcount else bankGet s.ra k)
    ∧ (s.disp.pcount ≠ 0#4 → 16 ≤ s.disp.raPtr.toNat →
        exec (.pram n) s = .next { s with disp := { s.disp with pcount := 0#4 } })

/-- PRAM as the host sees it, R133, R94, R68 (e): the command byte with start index `n` and any number of parameter
bytes leaves the bytes in `ra[n]`, `ra[n + 1]` and so on, drops those past `ra[15]` without a log entry, and changes no
other register. -/
def Obligations.PramStreamsIntoParameterRam : Prop :=
  ∀ (s : State) (n : BitVec 4) (ps : List Byte), s.WriteReady →
    ∃ (d : Dispatcher) (ra : Vector Byte 16),
      core.run (1 + ps.length) (s.feed (commandWrites s.cfg.portMap ⟨.pram n, ps⟩)) = .next
        { s with
          fifo := [], fifoDir := .write, sr := statusCleared s.sr, disp := d, ra := ra
          out := { s.out with
            log := s.out.log ++
              if s.disp.phase = .await ∧ s.disp.incomplete = true then [⟨.paramUnderrun, s.disp.cr⟩] else [] } }
        ∧ d.phase = .await ∧ d.pcount = 0#4 ∧ d.raPtr.toNat = min 16 (n.toNat + ps.length)
        ∧ ∀ k : BitVec 4, bankGet ra k =
            if n.toNat ≤ k.toNat ∧ k.toNat < n.toNat + ps.length then ps.getD (k.toNat - n.toNat) 0#8
            else bankGet s.ra k

/-- FIGS, R136, R94: at parameter 1, 3, 5, 7, 9, 11 the group that ends there is stored with the numbers of the R64
layout and nothing else changes; at the eleventh the dispatcher is idle, at the command byte it awaits, at an even
parameter nothing changes. -/
def Obligations.FigsCompletes : Prop :=
  ∀ s : State,
    (s.disp.pcount = 0#4 → exec .figs s = .next { s with disp := { s.disp with phase := .await } })
    ∧ (s.disp.pcount = 1#4 → ∃ (ty : BitVec 5) (dir : BitVec 3),
        exec .figs s = .next { s with fig := { s.fig with type := ty, dir := dir } }
          ∧ ty.toNat = s.param 1#4 / 8 ∧ dir.toNat = s.param 1#4 % 8)
    ∧ (s.disp.pcount = 3#4 → ∃ (dc : FigCount) (gd : Bool),
        exec .figs s = .next { s with fig := { s.fig with dc := dc, gd := gd } }
          ∧ dc.toNat = s.param 2#4 + 256 * (s.param 3#4 % 64) ∧ gd = decide (s.param 3#4 / 64 % 2 = 1))
    ∧ (s.disp.pcount = 5#4 → ∃ d : FigCount,
        exec .figs s = .next { s with fig := { s.fig with d := d } }
          ∧ d.toNat = s.param 4#4 + 256 * (s.param 5#4 % 64))
    ∧ (s.disp.pcount = 7#4 → ∃ d2 : FigCount,
        exec .figs s = .next { s with fig := { s.fig with d2 := d2 } }
          ∧ d2.toNat = s.param 6#4 + 256 * (s.param 7#4 % 64))
    ∧ (s.disp.pcount = 9#4 → ∃ d1 : FigCount,
        exec .figs s = .next { s with fig := { s.fig with d1 := d1 } }
          ∧ d1.toNat = s.param 8#4 + 256 * (s.param 9#4 % 64))
    ∧ (s.disp.pcount = 11#4 → ∃ dm : FigCount,
        exec .figs s = .next { s with fig := { s.fig with dm := dm }, disp := { s.disp with phase := .idle } }
          ∧ dm.toNat = s.param 10#4 + 256 * (s.param 11#4 % 64))
    ∧ (s.disp.pcount ≠ 0#4 → s.disp.pcount.toNat % 2 = 0 → exec .figs s = .next s)

/-! ## Data transfer (R150 to R167) -/

/-- R150: the eight directions of `AdvanceEAD` as arithmetic. The line part adds or subtracts the pitch, the dot part
rotates `mask`, steps `dad`, and carries into `ead` from the end bit of the mask before the rotate; `ead` wraps modulo
2^18 and `dad` modulo 16. -/
def Obligations.AdvanceEadArithmetic : Prop :=
  ∀ (a : AddrRegs) (pitch : Byte) (d : BitVec 3),
    let line : Int :=
      if d.toNat = 0 ∨ d.toNat = 1 ∨ d.toNat = 7 then (pitch.toNat : Int)
      else if d.toNat = 3 ∨ d.toNat = 4 ∨ d.toNat = 5 then -(pitch.toNat : Int) else 0
    let left : Prop := d.toNat = 1 ∨ d.toNat = 2 ∨ d.toNat = 3
    let right : Prop := d.toNat = 5 ∨ d.toNat = 6 ∨ d.toNat = 7
    (left → ((a.advance pitch d).ead.toNat : Int) = (a.ead.toNat + line + a.mask.toNat / 32768) % 262144
      ∧ (a.advance pitch d).mask.toNat = a.mask.toNat * 2 % 65536 + a.mask.toNat / 32768
      ∧ (a.advance pitch d).dad.toNat = (a.dad.toNat + 1) % 16)
    ∧ (right → ((a.advance pitch d).ead.toNat : Int) = (a.ead.toNat + line - a.mask.toNat % 2) % 262144
      ∧ (a.advance pitch d).mask.toNat = a.mask.toNat / 2 + 32768 * (a.mask.toNat % 2)
      ∧ (a.advance pitch d).dad.toNat = (a.dad.toNat + 15) % 16)
    ∧ (¬ left → ¬ right → ((a.advance pitch d).ead.toNat : Int) = (a.ead.toNat + line) % 262144
      ∧ (a.advance pitch d).mask = a.mask ∧ (a.advance pitch d).dad = a.dad)

/-- R151 for the direction 2: a mask of all ones steps one word a step and a mask of 0 never carries; a mask with one
bit set at the dot address steps one dot, carries into `ead` every sixteenth step, and stays at the dot address. -/
def Obligations.MaskStepsRightward : Prop :=
  ∀ (a : AddrRegs) (pitch : Byte) (n : Nat),
    (a.mask = 0xFFFF#16 → a.advanceN pitch 2#3 n =
      { ead := a.ead + BitVec.ofNat 18 n, dad := a.dad + BitVec.ofNat 4 n, mask := 0xFFFF#16 })
    ∧ (a.mask = 0#16 → a.advanceN pitch 2#3 n = { a with dad := a.dad + BitVec.ofNat 4 n })
    ∧ (a.mask = 1#16 <<< a.dad.toNat → a.advanceN pitch 2#3 n =
        { ead := a.ead + BitVec.ofNat 18 ((a.dad.toNat + n) / 16)
          dad := a.dad + BitVec.ofNat 4 n
          mask := 1#16 <<< ((a.dad.toNat + n) % 16) })

/-- R156, bit by bit: a bit of memory can change only where `sel` has a 1; there it is replaced by, inverted by,
cleared by or set by the data bit, by the mode. -/
def Obligations.ModifyBitwise : Prop :=
  ∀ (m : ModMode) (old data sel : Word) (i : Nat),
    (modifyWord m old data sel).getLsbD i =
      if sel.getLsbD i then
        match m with
        | .replace    => data.getLsbD i
        | .complement => old.getLsbD i != data.getLsbD i
        | .reset      => old.getLsbD i && !data.getLsbD i
        | .set        => old.getLsbD i || data.getLsbD i
      else old.getLsbD i

/-- WDAT, R155, R68 (a): the command byte latches the operands; a valid type awaits; the invalid type is logged with
the command byte, leaves the dispatcher idle and moves no data. The first byte of a word unit only waits for the
second. -/
def Obligations.WdatCommandByte : Prop :=
  ∀ (s : State) (t : XferType) (m : ModMode),
    (s.disp.pcount = 0#4 → t ≠ .invalid →
      exec (.wdat t m) s = .next { s with disp := { s.disp with xtype := t, mod := m, phase := .await } })
    ∧ (s.disp.pcount = 0#4 → t = .invalid →
      exec (.wdat t m) s = .next
        { s with
          disp := { s.disp with xtype := t, mod := m, phase := .idle }
          out := { s.out with log := s.out.log ++ [⟨.invalidType, s.disp.cr⟩] } })
    ∧ (s.disp.pcount = 1#4 → s.disp.xtype = .word → exec (.wdat t m) s = .next s)

/-- WDAT, R155, R156, R94: a complete data unit is written `figs_dc + 1` times, in order, each time through the mask
found and into the lane of the type, at the addresses `AdvanceEAD` steps through; then the repeat count is 0 and the
command awaits the next unit; every byte of memory outside those words, and everything else, is unchanged. -/
def Obligations.WdatWritesMemory : Prop :=
  ∀ (s : State) (t : XferType) (m : ModMode) (data lane : Word),
    (s.disp.xtype = .word ∧ s.disp.pcount = 2#4
        ∧ data = BitVec.ofNat 16 (s.param 1#4 + 256 * s.param 2#4) ∧ lane = 0xFFFF#16)
      ∨ (s.disp.xtype = .lowByte ∧ s.disp.pcount = 1#4
        ∧ data = BitVec.ofNat 16 (s.param 1#4) ∧ lane = 0x00FF#16)
      ∨ (s.disp.xtype = .highByte ∧ s.disp.pcount = 1#4
        ∧ data = BitVec.ofNat 16 (256 * s.param 1#4) ∧ lane = 0xFF00#16) →
    let at_ : Nat → AddrRegs := s.addr.advanceN s.pitch s.fig.dir
    ∃ mem : Memory,
      exec (.wdat t m) s = .next
        { s with
          mem := mem, addr := at_ (s.fig.dc.toNat + 1), fig := { s.fig with dc := 0#14 }
          disp := { s.disp with pcount := 0#4 } }
        ∧ mem = (List.range (s.fig.dc.toNat + 1)).foldl
            (fun mem j =>
              Memory.writeWord mem (s.vramIndex (at_ j).ead)
                (modifyWord s.disp.mod (Memory.readWord mem (s.vramIndex (at_ j).ead)) data ((at_ j).mask &&& lane)))
            s.mem
        ∧ ∀ x : Nat, (∀ j, j < s.fig.dc.toNat + 1 → x / 2 ≠ s.vramIndex (at_ j).ead) →
            Memory.readByte mem x = Memory.readByte s.mem x

/-- RDAT, R158, R287, R68 (a): from a WRITE FIFO, `figs_dc + 1` words are read at the addresses `AdvanceEAD` steps
through, their bytes queued for the host, the first 16 of them, the rest logged as overflow one by one in order; the
repeat count is 0, memory and everything else is unchanged. The invalid type is logged and moves no data; that it leaves
the FIFO direction or turns it to READ is the model's choice between R158 and R252 (e), a configuration value (log 18). -/
def Obligations.RdatCompletes : Prop :=
  ∀ (s : State) (t : XferType) (m : ModMode), s.fifoDir = .write →
    (t = .invalid → s.cfg.rdatInvalid = .keepsDirection →
      exec (.rdat t m) s = .next
        { s with
          disp := { s.disp with xtype := t, mod := m, phase := .idle }
          out := { s.out with log := s.out.log ++ [⟨.invalidType, s.disp.cr⟩] } })
    ∧ (t = .invalid → s.cfg.rdatInvalid = .turnsToRead → ∃ sr : Byte,
      exec (.rdat t m) s = .next
        { s with
          fifo := [], fifoDir := .read, sr := sr
          disp := { s.disp with xtype := t, mod := m, phase := .idle }
          out := { s.out with log := s.out.log ++ [⟨.invalidType, s.disp.cr⟩] } }
        ∧ statusGet sr .dr = false ∧ statusGet sr .fe = true ∧ statusGet sr .ff = false
        ∧ ∀ x : StatusBit, x ≠ .fe → x ≠ .ff → x ≠ .dr → statusGet sr x = s.status x)
    ∧ (t ≠ .invalid →
      let at_ : Nat → AddrRegs := s.addr.advanceN s.pitch s.fig.dir
      let bytes : List Byte := (List.range (s.fig.dc.toNat + 1)).flatMap (fun j =>
        let w := (Memory.readWord s.mem ((at_ j).ead.toNat % s.cfg.vramWords)).toNat
        match t with
        | .word => [BitVec.ofNat 8 (w % 256), BitVec.ofNat 8 (w / 256)]
        | .lowByte => [BitVec.ofNat 8 (w % 256)]
        | .highByte => [BitVec.ofNat 8 (w / 256)]
        | .invalid => [])
      ∃ sr : Byte,
        exec (.rdat t m) s = .next
          { s with
            fifo := (bytes.take 16).map (fun b => ⟨b, false⟩), fifoDir := .read, sr := sr
            addr := at_ (s.fig.dc.toNat + 1), fig := { s.fig with dc := 0#14 }
            disp := { s.disp with xtype := t, mod := m, phase := .idle }
            out := { s.out with log := s.out.log ++ (bytes.drop 16).map (fun b => ⟨.fifoOverflow, b⟩) } }
          ∧ statusGet sr .dr = true ∧ statusGet sr .fe = false
          ∧ statusGet sr .ff = decide (16 ≤ bytes.length)
          ∧ ∀ x : StatusBit, x ≠ .fe → x ≠ .ff → x ≠ .dr → statusGet sr x = s.status x)

/-- FIGD, R160 (its free values are the model's choice, log 8): logged under both policies. Under STUB nothing further changes. Under REFUSE memory and the eight
registers the rule names may hold anything (free values, log 8), the run is marked, and nothing else changes. -/
def Obligations.FigdCompletes : Prop :=
  ∀ s : State,
    (s.cfg.figdPolicy = .stub →
      exec .figd s = .next
        { s with
          disp := { s.disp with phase := .idle }
          out := { s.out with log := s.out.log ++ [⟨.unspecifiedFigd, 0x6C#8⟩] } })
    ∧ (s.cfg.figdPolicy = .refuse → ∃ (mem : Memory) (addr : AddrRegs) (dc d d2 d1 dm : FigCount),
      exec .figd s = .next
        { s with
          mem := mem, addr := addr, fig := { s.fig with dc := dc, d := d, d2 := d2, d1 := d1, dm := dm }
          disp := { s.disp with phase := .idle }
          out := { s.out with log := s.out.log ++ [⟨.unspecifiedFigd, 0x6C#8⟩] }
          runRefused := true, freeCount := s.freeCount + 1 })

/-- GCHRD, R162: `8 Z` rows of `8 Z` dots, `Z` the zoom factor, row `r` starting `r` row steps (direction
`fig_dir + 6`) from where the address registers began and dot `c` lying `c` dot steps (direction `fig_dir`) into its
row; the dot is bit `c / Z` of pattern byte `ra[15 - r / Z]`, written through the mask it finds; at the end the address
registers are `8 Z` row steps from where they began; every byte of memory outside the words of those dots, and
everything else, is unchanged. -/
def Obligations.GchrdCompletes : Prop :=
  ∀ s : State,
    let side : Nat := 8 * s.zoom.gchr.toNat
    let rowAt : Nat → AddrRegs := s.addr.advanceN s.pitch (s.fig.dir + 6#3)
    let dotAt : Nat → Nat → AddrRegs := fun r c => (rowAt r).advanceN s.pitch s.fig.dir c
    ∃ mem : Memory,
      exec .gchrd s = .next
        { s with mem := mem, addr := rowAt side, disp := { s.disp with phase := .idle } }
        ∧ mem = (List.range side).foldl
            (fun mem r => (List.range side).foldl
              (fun mem c =>
                Memory.writeWord mem (s.vramIndex (dotAt r c).ead)
                  (modifyWord s.disp.mod (Memory.readWord mem (s.vramIndex (dotAt r c).ead))
                    (if (bankGet s.ra (BitVec.ofNat 4 (15 - r / s.zoom.gchr.toNat))).getLsbD (c / s.zoom.gchr.toNat)
                      then 0xFFFF#16 else 0#16)
                    (dotAt r c).mask))
              mem)
            s.mem
        ∧ ∀ x : Nat, (∀ r c, r < side → c < side → x / 2 ≠ s.vramIndex (dotAt r c).ead) →
            Memory.readByte mem x = Memory.readByte s.mem x

/-- DMAR and DMAW, R165, R166: both latch the operands, set DMA-execute, and drive DRQ high unless it is; nothing else
changes. -/
def Obligations.DmaRequestsComplete : Prop :=
  ∀ (s : State) (t : XferType) (m : ModMode), ∃ sr : Byte,
    (let u : State :=
      { s with
        sr := sr, drq := true
        disp := { s.disp with xtype := t, mod := m, phase := .idle }
        out := { s.out with lines := s.out.lines ++ if s.drq then [] else [⟨.drq, true⟩] } }
    exec (.dmar t m) s = .next u ∧ exec (.dmaw t m) s = .next u)
      ∧ statusGet sr .dma = true ∧ ∀ x : StatusBit, x ≠ .dma → statusGet sr x = s.status x

/-! ## Read-back (R180 to R183) -/

/-- CURD, R180: from a WRITE FIFO, the queue is `ead` in three bytes, least significant first, then the dot address in
its configured form; DR is set, FE and FF are clear, and nothing else changes. -/
def Obligations.CurdCompletes : Prop :=
  ∀ s : State, s.fifoDir = .write → ∃ sr : Byte,
    exec .curd s = .next
      { s with
        fifo := ((match s.cfg.curdDadBytes with
          | .two => [s.addr.ead.toNat % 256, s.addr.ead.toNat / 256 % 256, s.addr.ead.toNat / 65536,
              2 ^ s.addr.dad.toNat % 256, 2 ^ s.addr.dad.toNat / 256]
          | .one => [s.addr.ead.toNat % 256, s.addr.ead.toNat / 256 % 256, s.addr.ead.toNat / 65536,
              16 * s.addr.dad.toNat]).map (fun n => ⟨BitVec.ofNat 8 n, false⟩))
        fifoDir := .read, sr := sr, disp := { s.disp with phase := .idle } }
      ∧ statusGet sr .dr = true ∧ statusGet sr .fe = false ∧ statusGet sr .ff = false
      ∧ ∀ x : StatusBit, x ≠ .fe → x ≠ .ff → x ≠ .dr → statusGet sr x = s.status x

/-- LPRD, R182: from a WRITE FIFO, the queue is `lad` in three bytes, least significant first; light-pen-detect is
cleared, DR set, FE and FF clear, and nothing else changes, `lad` included. -/
def Obligations.LprdCompletes : Prop :=
  ∀ s : State, s.fifoDir = .write → ∃ sr : Byte,
    exec .lprd s = .next
      { s with
        fifo := [s.lad.toNat % 256, s.lad.toNat / 256 % 256, s.lad.toNat / 65536].map
          (fun n => ⟨BitVec.ofNat 8 n, false⟩)
        fifoDir := .read, sr := sr, disp := { s.disp with phase := .idle } }
      ∧ statusGet sr .lpd = false ∧ statusGet sr .dr = true ∧ statusGet sr .fe = false ∧ statusGet sr .ff = false
      ∧ ∀ x : StatusBit, x ≠ .fe → x ≠ .ff → x ≠ .dr → x ≠ .lpd → statusGet sr x = s.status x

/-- The inputs of other agents, R167, R183, R53 (the store is the model's own event, log 13). `DmaEnd` clears DMA-execute and lowers DRQ if it was high;
`LightPenDetect` records the address and sets light-pen-detect, and drives no line; a store by another agent puts one
whole word into display memory, every other byte reading as before. Nothing else changes. -/
def Obligations.EnvironmentInputs : Prop :=
  ∀ (s : State) (rest : List Event),
    (s.events = .dmaEnd :: rest → ∃ sr : Byte,
      step s = .next
        { s with
          events := rest, sr := sr, drq := false
          out := { s.out with lines := s.out.lines ++ if s.drq then [⟨.drq, false⟩] else [] } }
        ∧ statusGet sr .dma = false ∧ ∀ x : StatusBit, x ≠ .dma → statusGet sr x = s.status x)
    ∧ (∀ a : VAddr, s.events = .lightPen a :: rest → ∃ sr : Byte,
      step s = .next { s with events := rest, lad := a, sr := sr }
        ∧ statusGet sr .lpd = true ∧ ∀ x : StatusBit, x ≠ .lpd → statusGet sr x = s.status x)
    ∧ (∀ (a : VAddr) (v : Word), s.events = .memStore a v :: rest → ∃ mem : Memory,
      step s = .next { s with events := rest, mem := mem }
        ∧ Memory.readWord mem (a.toNat % s.cfg.vramWords) = v
        ∧ ∀ x : Nat, x / 2 ≠ a.toNat % s.cfg.vramWords → Memory.readByte mem x = Memory.readByte s.mem x)

/-! ## Programs -/

/-- R130, R180, R181: CURS with any four parameter bytes, CURD, and five data reads return the address just set: the
bytes sent, the third masked to two bits, and the one-hot dot word. -/
def Obligations.CursReadsBackThroughCurd : Prop :=
  ∀ (s : State) (p1 p2 p3 p4 : Byte),
    s.WriteReady → s.cfg.curdDadBytes = .two →
    ∃ t, core.run 11
        (s.feed (programWrites s.cfg.portMap [⟨.curs, [p1, p2, p3, p4]⟩, ⟨.curd, []⟩]
          ++ List.replicate 5 (.portRead 1))) = .next t
      ∧ t.out.reads = s.out.reads ++
          [p1, p2, BitVec.ofNat 8 (p3.toNat % 4), BitVec.ofNat 8 (2 ^ (p4.toNat / 16) % 256),
            BitVec.ofNat 8 (2 ^ (p4.toNat / 16) / 256)]
      ∧ t.fifo = [] ∧ t.fifoDir = .read ∧ t.status .dr = false ∧ t.status .fe = true

/-- R155, R158: a word written by WDAT (replace, mask all ones, no repeat count) is what RDAT reads back after CURS has
returned to its address, at every address and in every drawing direction. -/
def Obligations.WdatReadsBackThroughRdat : Prop :=
  ∀ (s : State) (p1 p2 p3 p4 lo hi : Byte),
    s.WriteReady → s.fig.dc = 0#14 →
    ∃ t, core.run 19
        (s.feed (programWrites s.cfg.portMap
          [⟨.mask, [0xFF#8, 0xFF#8]⟩, ⟨.curs, [p1, p2, p3, p4]⟩, ⟨.wdat .word .replace, [lo, hi]⟩,
            ⟨.curs, [p1, p2, p3, p4]⟩, ⟨.rdat .word .replace, []⟩]
          ++ List.replicate 2 (.portRead 1))) = .next t
      ∧ t.out.reads = s.out.reads ++ [lo, hi]

/-- R63, R93 to R98, R252: a program of well-formed commands, from a dispatcher whose command in flight is complete, runs
to its end and makes no protocol-violation entry but the overflows of RDAT results: no underrun, no stray parameter, no
unknown opcode, no invalid type, no bad port. That a program with FIGD under REFUSE goes on to its end is the model's
choice (R160, log 8). -/
def Obligations.WellFormedProgramsOnlyOverflow : Prop :=
  ∀ (cs : List Command) (s : State),
    s.WriteReady → s.Settled → (∀ c ∈ cs, c.wellFormed = true) →
    ∃ (t : State) (es : List LogEntry),
      core.run (programWrites s.cfg.portMap cs).length (s.feed (programWrites s.cfg.portMap cs)) = .next t
        ∧ t.events = s.events ∧ t.Settled
        ∧ t.out.log = s.out.log ++ es ∧ ∀ e ∈ es, e.tolerated = true

/-! ## The renderer (R190 to R205) -/

/-- R190, R193: the four fields of a partition descriptor as numbers, and where the partitions lie. R20, R191, R192, R195:
how many partitions the mode byte has walked (bits 5 and 1), which of them are image partitions, and how many output
lines show one source line (bits 3 and 0). The bit places and the mixed-mode rule are the spec's from general knowledge
(log 16), the count 0 of the invalid mode the spec's choice (log 11). -/
def Obligations.PartitionLayout : Prop :=
  (∀ (ra : Vector Byte 16) (i : Nat), i < 4 →
    let b : Nat → Nat := fun k => (bankGet ra (BitVec.ofNat 4 (4 * i + k))).toNat
    (partitionAt ra i).sad.toNat = b 0 + 256 * b 1 + 65536 * (b 2 % 4)
      ∧ (partitionAt ra i).len.toNat = 16 * (b 3 % 64) + b 2 / 16
      ∧ (partitionAt ra i).im = decide (b 3 / 64 % 2 = 1)
      ∧ (partitionAt ra i).wd = decide (b 3 / 128 = 1)
      ∧ partitionTop ra 0 = 0
      ∧ partitionTop ra (i + 1) = partitionTop ra i + (16 * (b 3 % 64) + b 2 / 16) + 1)
  ∧ ∀ s : State,
    let bit : Nat → Prop := fun k => s.geom.mode.toNat / 2 ^ k % 2 = 1
    (¬ bit 5 → s.partitions = 2) ∧ (bit 5 → ¬ bit 1 → s.partitions = 4) ∧ (bit 5 → bit 1 → s.partitions = 0)
      ∧ (∀ p : Partition,
          (¬ bit 5 → ¬ bit 1 → partitionIsImage (displayMode s.geom.mode) p = p.im)
            ∧ (¬ bit 5 → bit 1 → partitionIsImage (displayMode s.geom.mode) p = true)
            ∧ (bit 5 → ¬ bit 1 → partitionIsImage (displayMode s.geom.mode) p = false))
      ∧ (bit 3 ∧ bit 0 → s.vRepeat = 2 * s.zoom.disp.toNat)
      ∧ (¬ (bit 3 ∧ bit 0) → s.vRepeat = s.zoom.disp.toNat)
      ∧ s.totalLines = partitionTop s.ra s.partitions

/-- R197, R192, R195: an output line whose source line lies above the end of the last partition walked makes exactly
`aw` calls, in order of cell, all with its own line number; any other makes none. That the invalid display mode makes
none at all is the spec's choice (R192, D45), which the model takes (log 11). -/
def Obligations.LineMakesOneCallPerCell : Prop :=
  ∀ (s : State) (y : Nat),
    (s.linePixels y).length = (if y / s.vRepeat < s.totalLines then s.geom.aw.toNat else 0)
      ∧ (∀ (c : Nat) (px : Pixel), (s.linePixels y)[c]? = some px → px.x = c ∧ px.y = y)
      ∧ (displayMode s.geom.mode = .invalid → s.linePixels y = [])

/-- R194, R196, R45: what each cell shows. For a source line in partition `i` the address is the partition's start,
plus the row times the pitch, plus the cell (half the cell in a wide partition), modulo 2^18 and then modulo the memory's
size; the value is the word there, or its low or high half in a wide partition. -/
def Obligations.CellShowsItsMemoryWord : Prop :=
  ∀ (s : State) (y i c : Nat),
    i < s.partitions → partitionTop s.ra i ≤ y / s.vRepeat → y / s.vRepeat < partitionTop s.ra (i + 1) →
    c < s.geom.aw.toNat →
    let p := partitionAt s.ra i
    let image := partitionIsImage (displayMode s.geom.mode) p
    let rel := y / s.vRepeat - partitionTop s.ra i
    let row := if image then rel else rel / s.cursor.lr.toNat
    let addr := (p.sad.toNat + row * s.pitch.toNat + (if p.wd then c / 2 else c)) % 2 ^ 18
    let w := (Memory.readWord s.mem (addr % s.cfg.vramWords)).toNat
    ∃ px : Pixel, (s.linePixels y)[c]? = some px
      ∧ px.x = c ∧ px.y = y
      ∧ px.linecount = (if image then 0 else rel % s.cursor.lr.toNat)
      ∧ px.charcode.toNat = (if p.wd then (if c % 2 = 0 then w % 256 else w / 256) else w)

/-- R201: the gate is the truth table, and in every callback of every line at most one of vsp, lten and rvv is set,
whatever the raw attributes are. -/
def Obligations.AttributePriority : Prop :=
  (∀ v l r : Bool, attrGate v l r = (l && !v, r && !v && !l))
    ∧ ∀ (s : State) (y : Nat), ∀ px ∈ s.linePixels y,
        (px.vsp = true → px.lten = false ∧ px.rvv = false) ∧ (px.lten = true → px.rvv = false)

/-- R199, R200 under the default attributes: vsp is set exactly while the display is disabled, and lten, hlgt, gpa and
la never; and the cell is reversed exactly when the display and the cursor are enabled, the partition is a text
partition, the cell's word address is `ead`, the scan line lies within the cursor, and the cursor is steady or in the
shown half of its blink. -/
def Obligations.BlankingAndCursorAttributes : Prop :=
  ∀ (s : State) (y : Nat), s.cfg.rawAttr = .standard →
    (∀ px ∈ s.linePixels y, px.vsp = !s.de ∧ px.lten = false ∧ px.hlgt = false ∧ px.gpa = 0#2 ∧ px.la = 0#2)
    ∧ ∀ i c : Nat,
      i < s.partitions → partitionTop s.ra i ≤ y / s.vRepeat → y / s.vRepeat < partitionTop s.ra (i + 1) →
      c < s.geom.aw.toNat →
      let p := partitionAt s.ra i
      let rel := y / s.vRepeat - partitionTop s.ra i
      let addr := (p.sad.toNat + rel / s.cursor.lr.toNat * s.pitch.toNat + (if p.wd then c / 2 else c)) % 2 ^ 18
      ∃ px : Pixel, (s.linePixels y)[c]? = some px
        ∧ (px.rvv = true ↔
            s.de = true ∧ s.cursor.dc = true ∧ partitionIsImage (displayMode s.geom.mode) p = false
              ∧ addr = s.addr.ead.toNat
              ∧ s.cursor.ctop.toNat ≤ rel % s.cursor.lr.toNat ∧ rel % s.cursor.lr.toNat ≤ s.cursor.cbot.toNat
              ∧ (s.cursor.sc = true ∨ s.raster.blinkCtr.toNat < max s.cursor.br.toNat 1))

/-- R203, R204: a frame makes `Total * V * aw` calls, and two output lines that show the same source line make the same
calls but for the line number. -/
def Obligations.FrameCallsAndRepeats : Prop :=
  ∀ s : State,
    s.framePixels.length = s.totalLines * s.vRepeat * s.geom.aw.toNat
      ∧ ∀ y y' : Nat, y / s.vRepeat = y' / s.vRepeat →
          s.linePixels y' = (s.linePixels y).map (fun px => { px with y := y' })

/-- R205: a render call only adds callbacks, and a second one at once adds the same again. -/
def Obligations.RenderingIsReadOnly : Prop :=
  ∀ (s : State) (y : Nat) (rest : List Event),
    (s.events = .renderLine y :: .renderLine y :: rest →
      core.run 2 s = .next
        { s with events := rest, out := { s.out with pixels := s.out.pixels ++ s.linePixels y ++ s.linePixels y } })
    ∧ (s.events = .renderFrame :: .renderFrame :: rest →
      core.run 2 s = .next
        { s with events := rest, out := { s.out with pixels := s.out.pixels ++ s.framePixels ++ s.framePixels } })

/-! ## The timing generator (R220 to R230) -/

/-- R224 to R227, R230: a tick that is not held enters the raster position, brings the three levels to their values
there with one line event for each level that changes, in the order VSYNC, HSYNC, BLANK, counts a new field, and moves
to the successor position; a slave at the end of a field then holds; nothing else changes. -/
def Obligations.TickEntersPosition : Prop :=
  ∀ (s : State) (rest : List Event),
    s.events = .tick :: rest → s.raster.vwait = false → s.geom.Ok →
    let h := s.raster.hnext.toNat
    let v := s.raster.vnext.toNat
    let half := max s.cursor.br.toNat 1
    let vsy := decide (v < s.geom.vs.toNat)
    let hsy := decide (h < s.geom.hs.toNat)
    let hbl := !decide (s.geom.hs.toNat + s.geom.hbp.toNat ≤ h
      ∧ h < s.geom.hs.toNat + s.geom.hbp.toNat + s.geom.aw.toNat)
    ∃ (r : Raster) (sr : Byte),
      step s = .next
        { s with
          events := rest, raster := r, sr := sr
          out := { s.out with
            lines := s.out.lines
              ++ (if vsy ≠ s.status .vsy then [⟨.vsync, vsy⟩] else [])
              ++ (if hsy ≠ s.raster.hsyncLevel then [⟨.hsync, hsy⟩] else [])
              ++ (if hbl ≠ s.status .hbl then [⟨.blank, hbl⟩] else []) } }
        ∧ statusGet sr .vsy = vsy ∧ r.hsyncLevel = hsy ∧ statusGet sr .hbl = hbl
        ∧ (∀ x : StatusBit, x ≠ .vsy → x ≠ .hbl → statusGet sr x = s.status x)
        ∧ r.hnext.toNat = (if h + 1 < s.geom.htc then h + 1 else 0)
        ∧ r.vnext.toNat = (if h + 1 < s.geom.htc then v else if v + 1 < s.geom.vtc then v + 1 else 0)
        ∧ r.vwait = (!s.master && !decide (h + 1 < s.geom.htc) && !decide (v + 1 < s.geom.vtc))
        ∧ r.blinkCtr.toNat =
            (if h = 0 ∧ v = 0 then (s.raster.blinkCtr.toNat + 1) % (2 * half) else s.raster.blinkCtr.toNat)

/-- R229: while a slave holds a tick does nothing; the external vsync restarts the field of a slave, held or not, with
no line event, and a master ignores it. -/
def Obligations.SlaveHoldsForExternalVsync : Prop :=
  ∀ (s : State) (rest : List Event),
    (s.events = .tick :: rest → s.raster.vwait = true → step s = .next { s with events := rest })
    ∧ (s.events = .extVsync :: rest → s.master = false →
        step s = .next
          { s with events := rest, raster := { s.raster with hnext := 0#9, vnext := 0#11, vwait := false } })
    ∧ (s.events = .extVsync :: rest → s.master = true → step s = .next { s with events := rest })

/-- R225, R222: a master free-runs. Numbering the positions of a field `v * HTc + h`, any number of ticks moves the
position on by that number modulo `HTc * VTc`, so a field is `HTc * VTc` ticks; the geometry is unchanged, and after a
tick the two status levels are those of the position before the one reached. -/
def Obligations.MasterFieldIsPeriodic : Prop :=
  ∀ (k : Nat) (s : State) (rest : List Event),
    s.events = List.replicate k .tick ++ rest → s.master = true → s.RasterOk → s.geom.Ok →
    let n := s.geom.htc * s.geom.vtc
    let place : State → Nat := fun u => u.raster.vnext.toNat * s.geom.htc + u.raster.hnext.toNat
    ∃ t, core.run k s = .next t
      ∧ t.events = rest ∧ t.geom = s.geom ∧ t.raster.vwait = false
      ∧ place t = (place s + k) % n
      ∧ (0 < k →
          let last := (place s + k - 1) % n
          t.status .vsy = s.geom.vsyncAt (last / s.geom.htc)
            ∧ t.status .hbl = s.geom.hblankAt (last % s.geom.htc)
            ∧ t.raster.hsyncLevel = s.geom.hsyncAt (last % s.geom.htc))

/-! ## The whole machine -/

/-- The model's creation state, R32 (the spec's own choice of values, log 4; parameters at their defaults, log 3;
memory with nothing listed, log 5), in which every invariant of the machine holds. -/
def Obligations.CreationState : Prop :=
  let s := State.reset
  s.fifo = [] ∧ s.fifoDir = .write ∧ s.sr = 0x04#8
    ∧ s.disp.cmd = .none ∧ s.disp.phase = .idle ∧ s.disp.cr = 0#8 ∧ s.disp.pcount = 0#4
    ∧ s.disp.pr = List.replicate 16 0#8 ∧ s.disp.raPtr = 0#5 ∧ s.disp.mod = .replace ∧ s.disp.xtype = .word
    ∧ s.geom = { mode := 0#8, aw := 0#9, hs := 0#6, vs := 0#5, hfp := 0#7, hbp := 0#7, vfp := 0#6, vbp := 0#6,
                 al := 0#10 }
    ∧ s.pitch = 0#8 ∧ s.de = false ∧ s.master = true
    ∧ s.cursor = { lr := 1#6, dc := false, ctop := 0#5, cbot := 0#5, sc := false, br := 0#5 }
    ∧ s.zoom = { disp := 1#5, gchr := 1#5 }
    ∧ s.addr = { ead := 0#18, dad := 0#4, mask := 0#16 } ∧ s.lad = 0#18 ∧ (∀ k, bankGet s.ra k = 0#8)
    ∧ s.fig = { dir := 0#3, type := 0#5, dc := 0#14, gd := false, d := 0#14, d2 := 0#14, d1 := 0#14, dm := 0#14 }
    ∧ s.raster = { hnext := 0#9, vnext := 0#11, vwait := false, hsyncLevel := false, blinkCtr := 0#6 }
    ∧ s.drq = false ∧ s.out = { log := [], lines := [], pixels := [], reads := [] } ∧ s.mem = []
    ∧ s.cfg = Config.default ∧ s.Ok

/-- R14, R11, R12, R86: every step keeps the FIFO's invariant: at most 16 entries, FE, FF and DR consistent with
occupancy and direction, a WRITE queue empty, only result bytes queued. -/
def Obligations.StepKeepsFifo : Prop :=
  ∀ s t : State, s.FifoOk → step s = .next t → t.FifoOk

/-- R16 to R18, R92: every step keeps the dispatcher's invariant: `cmd` is the decoded identity of `cr`, `pr[0]` its
copy, the PRAM pointer at most 16, and in AWAIT a command that can take a parameter, so that no parameter register past
the eleventh is ever reached; and the number of parameter registers is `PR_SIZE` (R5). -/
def Obligations.StepKeepsDispatcher : Prop :=
  ∀ s t : State, step s = .next t →
    (s.disp.Ok → t.disp.Ok) ∧ (s.disp.pr.length = s.cfg.prSize → t.disp.pr.length = t.cfg.prSize)

/-- R223, R229, R21, R24, R25, R44: every step keeps the raster within the totals and a held raster a slave's at (0,0),
keeps the registers that are divided by or counted with in their ranges, and keeps display memory in its canonical form
within its size. -/
def Obligations.StepKeepsRasterRegistersAndMemory : Prop :=
  ∀ s t : State, step s = .next t →
    (s.RasterOk → t.RasterOk) ∧ (s.RegsOk → t.RegsOk) ∧ (s.MemOk → t.MemOk)

/-- R256, R157: every step keeps each output line driven when and only when its level changes and standing at its stored
level, INT never driven, DMA-execute equal to DRQ, and drawing-in-progress 0. -/
def Obligations.StepKeepsLines : Prop :=
  ∀ s t : State, s.LinesOk → step s = .next t → t.LinesOk

/-- R255, R284: whatever the state and the events, a run of any length goes on: no fault, no refusal. That it goes on
after a FIGD under REFUSE too, with free values and a mark where R160 has a model mark the run as refused, is the
model's choice (log 8). -/
def Obligations.EveryRunGoesOn : Prop :=
  ∀ (k : Nat) (s : State), ∃ t, core.run k s = .next t

/-- R30, R266: a step consumes at most its event, only adds to each output stream, and changes no parameter. -/
def Obligations.OutputsOnlyGrow : Prop :=
  ∀ s t : State, step s = .next t →
    s.out.log <+: t.out.log ∧ s.out.lines <+: t.out.lines ∧ s.out.pixels <+: t.out.pixels
      ∧ s.out.reads <+: t.out.reads ∧ t.cfg = s.cfg ∧ t.events = s.events.tail

/-- R20 to R28, R48: a field of the register file, the parameter RAM or display memory changes only in a port write of
one of the commands the rules name for that field; CURS and MASK keep to their own fields (R131), WDAT and RDAT change no
figure register but the repeat count. Among the commands FIGD stands where R160 leaves a value unspecified (the model's
free values, log 8); `lad` changes only by the light pen, and display memory also by another agent's store (R53, the
model's own event, log 13). -/
def Obligations.OnlyNamedCommandsWriteRegisters : Prop :=
  ∀ s t : State, s.WriteReady → step s = .next t →
    let by_ : List Mnemonic → Prop := fun names =>
      ∃ offset b rest name, s.events = .portWrite offset b :: rest ∧ name ∈ names ∧ t.disp.cmd = .command name
    (t.geom ≠ s.geom → by_ [.sync, .reset])
      ∧ (t.pitch ≠ s.pitch → by_ [.pitch])
      ∧ (t.de ≠ s.de → by_ [.reset, .sync, .start, .bctrl])
      ∧ (t.master ≠ s.master → by_ [.vsync])
      ∧ (t.cursor ≠ s.cursor → by_ [.cchar])
      ∧ (t.zoom ≠ s.zoom → by_ [.zoom])
      ∧ (t.addr.ead ≠ s.addr.ead → by_ [.reset, .curs, .wdat, .rdat, .figd, .gchrd])
      ∧ (t.addr.dad ≠ s.addr.dad → by_ [.reset, .curs, .wdat, .rdat, .figd, .gchrd])
      ∧ (t.addr.mask ≠ s.addr.mask → by_ [.reset, .mask, .wdat, .rdat, .figd, .gchrd])
      ∧ (t.ra ≠ s.ra → by_ [.pram, .reset])
      ∧ (t.disp.raPtr ≠ s.disp.raPtr → by_ [.pram])
      ∧ ((t.disp.xtype, t.disp.mod) ≠ (s.disp.xtype, s.disp.mod) → by_ [.wdat, .rdat, .dmar, .dmaw])
      ∧ ((t.fig.dir, t.fig.type, t.fig.gd) ≠ (s.fig.dir, s.fig.type, s.fig.gd) → by_ [.figs])
      ∧ (t.fig.dc ≠ s.fig.dc → by_ [.figs, .wdat, .rdat, .figd])
      ∧ ((t.fig.d, t.fig.d2, t.fig.d1, t.fig.dm) ≠ (s.fig.d, s.fig.d2, s.fig.d1, s.fig.dm) → by_ [.figs, .figd])
      ∧ (t.mem ≠ s.mem → by_ [.wdat, .gchrd, .figd] ∨ ∃ a v rest, s.events = .memStore a v :: rest)
      ∧ (t.lad ≠ s.lad → ∃ a rest, s.events = .lightPen a :: rest)

/-- R13, R29, R226, R234: the status bits and line levels that are not the FIFO's change only by the events the rules
name: VSYNC, HSYNC and BLANK levels by a tick, DMA-execute and DRQ by DMAR, DMAW and the end of the transfer, light-pen
detect by the pen and LPRD, drawing-in-progress never; the raster position moves only by a tick, an external vsync,
SYNC or RESET, and the blink counter only by a tick. -/
def Obligations.OnlyNamedEventsMoveStatus : Prop :=
  ∀ s t : State, s.WriteReady → step s = .next t →
    let by_ : List Mnemonic → Prop := fun names =>
      ∃ offset b rest name, s.events = .portWrite offset b :: rest ∧ name ∈ names ∧ t.disp.cmd = .command name
    let tick : Prop := ∃ rest, s.events = .tick :: rest
    (t.status .vsy ≠ s.status .vsy → tick)
      ∧ (t.status .hbl ≠ s.status .hbl → tick)
      ∧ (t.raster.hsyncLevel ≠ s.raster.hsyncLevel → tick)
      ∧ (t.raster.blinkCtr ≠ s.raster.blinkCtr → tick)
      ∧ (t.status .dma ≠ s.status .dma → by_ [.dmar, .dmaw] ∨ ∃ rest, s.events = .dmaEnd :: rest)
      ∧ (t.drq ≠ s.drq → by_ [.dmar, .dmaw] ∨ ∃ rest, s.events = .dmaEnd :: rest)
      ∧ (t.status .lpd ≠ s.status .lpd → by_ [.lprd] ∨ ∃ a rest, s.events = .lightPen a :: rest)
      ∧ t.status .dip = s.status .dip
      ∧ ((t.raster.hnext, t.raster.vnext) ≠ (s.raster.hnext, s.raster.vnext) →
          tick ∨ by_ [.sync, .reset] ∨ ∃ rest, s.events = .extVsync :: rest)
end

