-- ==== Sys2Proof/Laws/Bits.lean ====
section
/-! SUPPORT. The status bits, the parameter RAM and registers and the two halves of a word: reading after writing. -/

namespace Sys2Proof.Machine

/-! ## Status bits (R13) -/

/-- Reading a field after writing one. -/
theorem statusGet_put (sr : Byte) (b c : StatusBit) (v : Bool) :
    statusGet (statusPut sr b v) c = if c = b then v else statusGet sr c := by
  cases b <;> cases c <;> cases v <;> simp [statusGet, statusPut, StatusBit.index]

@[simp] theorem statusGet_put_self (sr : Byte) (b : StatusBit) (v : Bool) : statusGet (statusPut sr b v) b = v := by
  simp [statusGet_put]

theorem statusGet_put_ne (sr : Byte) {b c : StatusBit} (v : Bool) (h : c ≠ b) :
    statusGet (statusPut sr b v) c = statusGet sr c := by
  simp [statusGet_put, h]

/-- Two status bytes with the same fields are the same byte. -/
theorem status_ext {x y : Byte} (h : ∀ b, statusGet x b = statusGet y b) : x = y := by
  apply BitVec.eq_of_getLsbD_eq
  intro i hi
  have h0 := h .dr; have h1 := h .ff; have h2 := h .fe; have h3 := h .dip
  have h4 := h .dma; have h5 := h .vsy; have h6 := h .hbl; have h7 := h .lpd
  simp only [statusGet, StatusBit.index] at h0 h1 h2 h3 h4 h5 h6 h7
  have : i = 0 ∨ i = 1 ∨ i = 2 ∨ i = 3 ∨ i = 4 ∨ i = 5 ∨ i = 6 ∨ i = 7 := by omega
  rcases this with rfl | rfl | rfl | rfl | rfl | rfl | rfl | rfl <;> assumption

@[simp] theorem State.status_setStatus (s : State) (b c : StatusBit) (v : Bool) :
    (s.setStatus b v).status c = if c = b then v else s.status c := statusGet_put s.sr b c v

/-- Every field after an enqueue (R80). -/
theorem statusGet_afterEnqueue (sr : Byte) (n : Nat) (d : FifoDir) (c : StatusBit) :
    statusGet (statusAfterEnqueue sr n d) c =
      match c with
      | .fe => false
      | .ff => if n = fifoDepth then true else statusGet sr .ff
      | .dr => if d = .read then true else statusGet sr .dr
      | c => statusGet sr c := by
  unfold statusAfterEnqueue
  by_cases hn : n = fifoDepth <;> cases d <;> cases c <;> simp [hn, statusGet_put]

/-- Every field after a dequeue that left `n` entries (R81). -/
theorem statusGet_afterDequeue (sr : Byte) (n : Nat) (c : StatusBit) :
    statusGet (statusAfterDequeue sr n) c =
      match c with
      | .ff => false
      | .fe => if n = 0 then true else statusGet sr .fe
      | .dr => if n = 0 then false else statusGet sr .dr
      | c => statusGet sr c := by
  unfold statusAfterDequeue
  by_cases hn : n = 0 <;> cases c <;> simp [hn, statusGet_put]

/-- Every field of a cleared queue (R83). -/
theorem statusGet_cleared (sr : Byte) (c : StatusBit) :
    statusGet (statusCleared sr) c =
      match c with
      | .fe => true
      | .ff => false
      | .dr => false
      | c => statusGet sr c := by
  unfold statusCleared
  cases c <;> simp [statusGet_put]

/-! ## Banks (R7) -/

/-- Reading an entry after writing one. -/
theorem bankGet_bankSet (v : Vector Byte 16) (i j : BitVec 4) (b : Byte) :
    bankGet (bankSet v i b) j = if j = i then b else bankGet v j := by
  unfold bankGet bankSet
  by_cases h : j = i
  · subst h
    simp
  · have : i.toNat ≠ j.toNat := fun e => h (BitVec.eq_of_toNat_eq e.symm)
    simp [h, this]

@[simp] theorem bankGet_bankSet_self (v : Vector Byte 16) (i : BitVec 4) (b : Byte) :
    bankGet (bankSet v i b) i = b := by
  simp [bankGet_bankSet]

theorem bankGet_bankSet_ne (v : Vector Byte 16) {i j : BitVec 4} (b : Byte) (h : j ≠ i) :
    bankGet (bankSet v i b) j = bankGet v j := by
  simp [bankGet_bankSet, h]

@[simp] theorem bankGet_replicate (i : BitVec 4) (b : Byte) : bankGet (Vector.replicate 16 b) i = b := by
  simp [bankGet]

/-- Two banks with the same entries are the same bank. -/
theorem bank_ext {v w : Vector Byte 16} (h : ∀ k, bankGet v k = bankGet w k) : v = w := by
  apply Vector.ext
  intro i hi
  have := h (BitVec.ofNat 4 i)
  simpa [bankGet, Nat.mod_eq_of_lt hi] using this

/-! ## The parameter registers (R7, R91) -/

/-- Reading a parameter register that exists after writing one. -/
theorem prGet_prSet {pr : List Byte} {j : BitVec 4} (i : BitVec 4) (b : Byte) (h : j.toNat < pr.length) :
    prGet (prSet pr i b) j = if j = i then b else prGet pr j := by
  unfold prGet prSet
  by_cases e : j = i
  · subst e
    simp [h]
  · have : i.toNat ≠ j.toNat := fun e' => e (BitVec.eq_of_toNat_eq e'.symm)
    simp [e, this]

theorem prGet_prSet_ne (pr : List Byte) {i j : BitVec 4} (b : Byte) (h : j ≠ i) :
    prGet (prSet pr i b) j = prGet pr j := by
  have : i.toNat ≠ j.toNat := fun e' => h (BitVec.eq_of_toNat_eq e'.symm)
  simp [prGet, prSet, this]

@[simp] theorem prSet_length (pr : List Byte) (i : BitVec 4) (b : Byte) : (prSet pr i b).length = pr.length := by
  simp [prSet]

/-- A command byte leaves its copy in `pr[0]` and 0 in every other register. -/
theorem prGet_prLoad (n : Nat) (b : Byte) (k : BitVec 4) :
    prGet (prLoad n b) k = if k = 0#4 then b else 0#8 := by
  unfold prGet prLoad
  by_cases h : k = 0#4
  · subst h
    simp
  · obtain ⟨m, hm⟩ : ∃ m, k.toNat = m + 1 :=
      Nat.exists_eq_succ_of_ne_zero (fun e => h (BitVec.eq_of_toNat_eq (by simpa using e)))
    simp only [h, if_false, hm, List.getD_cons_succ]
    by_cases hl : m < n - 1 <;> simp [List.getD, hl]

@[simp] theorem prLoad_length (c : Config) (b : Byte) : (prLoad c.prSize b).length = c.prSize := by
  simp [prLoad, Config.prSize]
  omega

/-! ## The halves of a word (R43) -/

theorem toNat_wordOf (l h : Byte) : (wordOf l h).toNat = h.toNat * 256 + l.toNat := by
  have e : (wordOf l h).toNat = h.toNat <<< 8 ||| l.toNat := BitVec.toNat_append (x := h) (y := l)
  rw [e, ← Nat.shiftLeft_add_eq_or_of_lt l.isLt, Nat.shiftLeft_eq]

theorem toNat_loByte (w : Word) : (loByte w).toNat = w.toNat % 256 := by
  simp [loByte, BitVec.extractLsb]

theorem toNat_hiByte (w : Word) : (hiByte w).toNat = w.toNat / 256 := by
  have hw := w.isLt
  simp [hiByte, BitVec.extractLsb, BitVec.extractLsb', Nat.shiftRight_eq_div_pow]
  omega

@[simp] theorem loByte_wordOf (l h : Byte) : loByte (wordOf l h) = l := by
  have hl := l.isLt
  apply BitVec.eq_of_toNat_eq
  rw [toNat_loByte, toNat_wordOf]
  omega

@[simp] theorem hiByte_wordOf (l h : Byte) : hiByte (wordOf l h) = h := by
  have hl := l.isLt
  apply BitVec.eq_of_toNat_eq
  rw [toNat_hiByte, toNat_wordOf]
  omega

@[simp] theorem wordOf_halves (w : Word) : wordOf (loByte w) (hiByte w) = w := by
  apply BitVec.eq_of_toNat_eq
  rw [toNat_wordOf, toNat_loByte, toNat_hiByte]
  omega

end Sys2Proof.Machine
end

