-- ==== Sys2Proof/Laws/State.lean ====
section
/-! SUPPORT. One lemma per field per named update of the state, true by `rfl`, so that no later proof unfolds a
record update. -/

namespace Sys2Proof.Machine

variable (s : State)

/-! `State.raiseLog` -/

@[simp] theorem State.raiseLog_fifo (c : LogCode) (i : Byte) : (s.raiseLog c i).fifo = s.fifo := rfl
@[simp] theorem State.raiseLog_fifoDir (c : LogCode) (i : Byte) : (s.raiseLog c i).fifoDir = s.fifoDir := rfl
@[simp] theorem State.raiseLog_sr (c : LogCode) (i : Byte) : (s.raiseLog c i).sr = s.sr := rfl
@[simp] theorem State.raiseLog_disp (c : LogCode) (i : Byte) : (s.raiseLog c i).disp = s.disp := rfl
@[simp] theorem State.raiseLog_geom (c : LogCode) (i : Byte) : (s.raiseLog c i).geom = s.geom := rfl
@[simp] theorem State.raiseLog_pitch (c : LogCode) (i : Byte) : (s.raiseLog c i).pitch = s.pitch := rfl
@[simp] theorem State.raiseLog_de (c : LogCode) (i : Byte) : (s.raiseLog c i).de = s.de := rfl
@[simp] theorem State.raiseLog_master (c : LogCode) (i : Byte) : (s.raiseLog c i).master = s.master := rfl
@[simp] theorem State.raiseLog_cursor (c : LogCode) (i : Byte) : (s.raiseLog c i).cursor = s.cursor := rfl
@[simp] theorem State.raiseLog_zoom (c : LogCode) (i : Byte) : (s.raiseLog c i).zoom = s.zoom := rfl
@[simp] theorem State.raiseLog_addr (c : LogCode) (i : Byte) : (s.raiseLog c i).addr = s.addr := rfl
@[simp] theorem State.raiseLog_lad (c : LogCode) (i : Byte) : (s.raiseLog c i).lad = s.lad := rfl
@[simp] theorem State.raiseLog_ra (c : LogCode) (i : Byte) : (s.raiseLog c i).ra = s.ra := rfl
@[simp] theorem State.raiseLog_fig (c : LogCode) (i : Byte) : (s.raiseLog c i).fig = s.fig := rfl
@[simp] theorem State.raiseLog_raster (c : LogCode) (i : Byte) : (s.raiseLog c i).raster = s.raster := rfl
@[simp] theorem State.raiseLog_drq (c : LogCode) (i : Byte) : (s.raiseLog c i).drq = s.drq := rfl
@[simp] theorem State.raiseLog_mem (c : LogCode) (i : Byte) : (s.raiseLog c i).mem = s.mem := rfl
@[simp] theorem State.raiseLog_out (c : LogCode) (i : Byte) : (s.raiseLog c i).out = { s.out with log := s.out.log ++ [⟨c, i⟩] } := rfl
@[simp] theorem State.raiseLog_cfg (c : LogCode) (i : Byte) : (s.raiseLog c i).cfg = s.cfg := rfl
@[simp] theorem State.raiseLog_events (c : LogCode) (i : Byte) : (s.raiseLog c i).events = s.events := rfl
@[simp] theorem State.raiseLog_freeCount (c : LogCode) (i : Byte) : (s.raiseLog c i).freeCount = s.freeCount := rfl
@[simp] theorem State.raiseLog_runRefused (c : LogCode) (i : Byte) : (s.raiseLog c i).runRefused = s.runRefused := rfl

/-! `State.driveLine` -/

@[simp] theorem State.driveLine_fifo (n : LineName) (l : Bool) : (s.driveLine n l).fifo = s.fifo := rfl
@[simp] theorem State.driveLine_fifoDir (n : LineName) (l : Bool) : (s.driveLine n l).fifoDir = s.fifoDir := rfl
@[simp] theorem State.driveLine_sr (n : LineName) (l : Bool) : (s.driveLine n l).sr = s.sr := rfl
@[simp] theorem State.driveLine_disp (n : LineName) (l : Bool) : (s.driveLine n l).disp = s.disp := rfl
@[simp] theorem State.driveLine_geom (n : LineName) (l : Bool) : (s.driveLine n l).geom = s.geom := rfl
@[simp] theorem State.driveLine_pitch (n : LineName) (l : Bool) : (s.driveLine n l).pitch = s.pitch := rfl
@[simp] theorem State.driveLine_de (n : LineName) (l : Bool) : (s.driveLine n l).de = s.de := rfl
@[simp] theorem State.driveLine_master (n : LineName) (l : Bool) : (s.driveLine n l).master = s.master := rfl
@[simp] theorem State.driveLine_cursor (n : LineName) (l : Bool) : (s.driveLine n l).cursor = s.cursor := rfl
@[simp] theorem State.driveLine_zoom (n : LineName) (l : Bool) : (s.driveLine n l).zoom = s.zoom := rfl
@[simp] theorem State.driveLine_addr (n : LineName) (l : Bool) : (s.driveLine n l).addr = s.addr := rfl
@[simp] theorem State.driveLine_lad (n : LineName) (l : Bool) : (s.driveLine n l).lad = s.lad := rfl
@[simp] theorem State.driveLine_ra (n : LineName) (l : Bool) : (s.driveLine n l).ra = s.ra := rfl
@[simp] theorem State.driveLine_fig (n : LineName) (l : Bool) : (s.driveLine n l).fig = s.fig := rfl
@[simp] theorem State.driveLine_raster (n : LineName) (l : Bool) : (s.driveLine n l).raster = s.raster := rfl
@[simp] theorem State.driveLine_drq (n : LineName) (l : Bool) : (s.driveLine n l).drq = s.drq := rfl
@[simp] theorem State.driveLine_mem (n : LineName) (l : Bool) : (s.driveLine n l).mem = s.mem := rfl
@[simp] theorem State.driveLine_out (n : LineName) (l : Bool) : (s.driveLine n l).out = { s.out with lines := s.out.lines ++ [⟨n, l⟩] } := rfl
@[simp] theorem State.driveLine_cfg (n : LineName) (l : Bool) : (s.driveLine n l).cfg = s.cfg := rfl
@[simp] theorem State.driveLine_events (n : LineName) (l : Bool) : (s.driveLine n l).events = s.events := rfl
@[simp] theorem State.driveLine_freeCount (n : LineName) (l : Bool) : (s.driveLine n l).freeCount = s.freeCount := rfl
@[simp] theorem State.driveLine_runRefused (n : LineName) (l : Bool) : (s.driveLine n l).runRefused = s.runRefused := rfl

/-! `State.emitPixels` -/

@[simp] theorem State.emitPixels_fifo (ps : List Pixel) : (s.emitPixels ps).fifo = s.fifo := rfl
@[simp] theorem State.emitPixels_fifoDir (ps : List Pixel) : (s.emitPixels ps).fifoDir = s.fifoDir := rfl
@[simp] theorem State.emitPixels_sr (ps : List Pixel) : (s.emitPixels ps).sr = s.sr := rfl
@[simp] theorem State.emitPixels_disp (ps : List Pixel) : (s.emitPixels ps).disp = s.disp := rfl
@[simp] theorem State.emitPixels_geom (ps : List Pixel) : (s.emitPixels ps).geom = s.geom := rfl
@[simp] theorem State.emitPixels_pitch (ps : List Pixel) : (s.emitPixels ps).pitch = s.pitch := rfl
@[simp] theorem State.emitPixels_de (ps : List Pixel) : (s.emitPixels ps).de = s.de := rfl
@[simp] theorem State.emitPixels_master (ps : List Pixel) : (s.emitPixels ps).master = s.master := rfl
@[simp] theorem State.emitPixels_cursor (ps : List Pixel) : (s.emitPixels ps).cursor = s.cursor := rfl
@[simp] theorem State.emitPixels_zoom (ps : List Pixel) : (s.emitPixels ps).zoom = s.zoom := rfl
@[simp] theorem State.emitPixels_addr (ps : List Pixel) : (s.emitPixels ps).addr = s.addr := rfl
@[simp] theorem State.emitPixels_lad (ps : List Pixel) : (s.emitPixels ps).lad = s.lad := rfl
@[simp] theorem State.emitPixels_ra (ps : List Pixel) : (s.emitPixels ps).ra = s.ra := rfl
@[simp] theorem State.emitPixels_fig (ps : List Pixel) : (s.emitPixels ps).fig = s.fig := rfl
@[simp] theorem State.emitPixels_raster (ps : List Pixel) : (s.emitPixels ps).raster = s.raster := rfl
@[simp] theorem State.emitPixels_drq (ps : List Pixel) : (s.emitPixels ps).drq = s.drq := rfl
@[simp] theorem State.emitPixels_mem (ps : List Pixel) : (s.emitPixels ps).mem = s.mem := rfl
@[simp] theorem State.emitPixels_out (ps : List Pixel) : (s.emitPixels ps).out = { s.out with pixels := s.out.pixels ++ ps } := rfl
@[simp] theorem State.emitPixels_cfg (ps : List Pixel) : (s.emitPixels ps).cfg = s.cfg := rfl
@[simp] theorem State.emitPixels_events (ps : List Pixel) : (s.emitPixels ps).events = s.events := rfl
@[simp] theorem State.emitPixels_freeCount (ps : List Pixel) : (s.emitPixels ps).freeCount = s.freeCount := rfl
@[simp] theorem State.emitPixels_runRefused (ps : List Pixel) : (s.emitPixels ps).runRefused = s.runRefused := rfl

/-! `State.returnByte` -/

@[simp] theorem State.returnByte_fifo (b : Byte) : (s.returnByte b).fifo = s.fifo := rfl
@[simp] theorem State.returnByte_fifoDir (b : Byte) : (s.returnByte b).fifoDir = s.fifoDir := rfl
@[simp] theorem State.returnByte_sr (b : Byte) : (s.returnByte b).sr = s.sr := rfl
@[simp] theorem State.returnByte_disp (b : Byte) : (s.returnByte b).disp = s.disp := rfl
@[simp] theorem State.returnByte_geom (b : Byte) : (s.returnByte b).geom = s.geom := rfl
@[simp] theorem State.returnByte_pitch (b : Byte) : (s.returnByte b).pitch = s.pitch := rfl
@[simp] theorem State.returnByte_de (b : Byte) : (s.returnByte b).de = s.de := rfl
@[simp] theorem State.returnByte_master (b : Byte) : (s.returnByte b).master = s.master := rfl
@[simp] theorem State.returnByte_cursor (b : Byte) : (s.returnByte b).cursor = s.cursor := rfl
@[simp] theorem State.returnByte_zoom (b : Byte) : (s.returnByte b).zoom = s.zoom := rfl
@[simp] theorem State.returnByte_addr (b : Byte) : (s.returnByte b).addr = s.addr := rfl
@[simp] theorem State.returnByte_lad (b : Byte) : (s.returnByte b).lad = s.lad := rfl
@[simp] theorem State.returnByte_ra (b : Byte) : (s.returnByte b).ra = s.ra := rfl
@[simp] theorem State.returnByte_fig (b : Byte) : (s.returnByte b).fig = s.fig := rfl
@[simp] theorem State.returnByte_raster (b : Byte) : (s.returnByte b).raster = s.raster := rfl
@[simp] theorem State.returnByte_drq (b : Byte) : (s.returnByte b).drq = s.drq := rfl
@[simp] theorem State.returnByte_mem (b : Byte) : (s.returnByte b).mem = s.mem := rfl
@[simp] theorem State.returnByte_out (b : Byte) : (s.returnByte b).out = { s.out with reads := s.out.reads ++ [b] } := rfl
@[simp] theorem State.returnByte_cfg (b : Byte) : (s.returnByte b).cfg = s.cfg := rfl
@[simp] theorem State.returnByte_events (b : Byte) : (s.returnByte b).events = s.events := rfl
@[simp] theorem State.returnByte_freeCount (b : Byte) : (s.returnByte b).freeCount = s.freeCount := rfl
@[simp] theorem State.returnByte_runRefused (b : Byte) : (s.returnByte b).runRefused = s.runRefused := rfl

/-! `State.setPhase` -/

@[simp] theorem State.setPhase_fifo (p : Phase) : (s.setPhase p).fifo = s.fifo := rfl
@[simp] theorem State.setPhase_fifoDir (p : Phase) : (s.setPhase p).fifoDir = s.fifoDir := rfl
@[simp] theorem State.setPhase_sr (p : Phase) : (s.setPhase p).sr = s.sr := rfl
@[simp] theorem State.setPhase_disp (p : Phase) : (s.setPhase p).disp = { s.disp with phase := p } := rfl
@[simp] theorem State.setPhase_geom (p : Phase) : (s.setPhase p).geom = s.geom := rfl
@[simp] theorem State.setPhase_pitch (p : Phase) : (s.setPhase p).pitch = s.pitch := rfl
@[simp] theorem State.setPhase_de (p : Phase) : (s.setPhase p).de = s.de := rfl
@[simp] theorem State.setPhase_master (p : Phase) : (s.setPhase p).master = s.master := rfl
@[simp] theorem State.setPhase_cursor (p : Phase) : (s.setPhase p).cursor = s.cursor := rfl
@[simp] theorem State.setPhase_zoom (p : Phase) : (s.setPhase p).zoom = s.zoom := rfl
@[simp] theorem State.setPhase_addr (p : Phase) : (s.setPhase p).addr = s.addr := rfl
@[simp] theorem State.setPhase_lad (p : Phase) : (s.setPhase p).lad = s.lad := rfl
@[simp] theorem State.setPhase_ra (p : Phase) : (s.setPhase p).ra = s.ra := rfl
@[simp] theorem State.setPhase_fig (p : Phase) : (s.setPhase p).fig = s.fig := rfl
@[simp] theorem State.setPhase_raster (p : Phase) : (s.setPhase p).raster = s.raster := rfl
@[simp] theorem State.setPhase_drq (p : Phase) : (s.setPhase p).drq = s.drq := rfl
@[simp] theorem State.setPhase_mem (p : Phase) : (s.setPhase p).mem = s.mem := rfl
@[simp] theorem State.setPhase_out (p : Phase) : (s.setPhase p).out = s.out := rfl
@[simp] theorem State.setPhase_cfg (p : Phase) : (s.setPhase p).cfg = s.cfg := rfl
@[simp] theorem State.setPhase_events (p : Phase) : (s.setPhase p).events = s.events := rfl
@[simp] theorem State.setPhase_freeCount (p : Phase) : (s.setPhase p).freeCount = s.freeCount := rfl
@[simp] theorem State.setPhase_runRefused (p : Phase) : (s.setPhase p).runRefused = s.runRefused := rfl

/-! `State.setPcount` -/

@[simp] theorem State.setPcount_fifo (n : BitVec 4) : (s.setPcount n).fifo = s.fifo := rfl
@[simp] theorem State.setPcount_fifoDir (n : BitVec 4) : (s.setPcount n).fifoDir = s.fifoDir := rfl
@[simp] theorem State.setPcount_sr (n : BitVec 4) : (s.setPcount n).sr = s.sr := rfl
@[simp] theorem State.setPcount_disp (n : BitVec 4) : (s.setPcount n).disp = { s.disp with pcount := n } := rfl
@[simp] theorem State.setPcount_geom (n : BitVec 4) : (s.setPcount n).geom = s.geom := rfl
@[simp] theorem State.setPcount_pitch (n : BitVec 4) : (s.setPcount n).pitch = s.pitch := rfl
@[simp] theorem State.setPcount_de (n : BitVec 4) : (s.setPcount n).de = s.de := rfl
@[simp] theorem State.setPcount_master (n : BitVec 4) : (s.setPcount n).master = s.master := rfl
@[simp] theorem State.setPcount_cursor (n : BitVec 4) : (s.setPcount n).cursor = s.cursor := rfl
@[simp] theorem State.setPcount_zoom (n : BitVec 4) : (s.setPcount n).zoom = s.zoom := rfl
@[simp] theorem State.setPcount_addr (n : BitVec 4) : (s.setPcount n).addr = s.addr := rfl
@[simp] theorem State.setPcount_lad (n : BitVec 4) : (s.setPcount n).lad = s.lad := rfl
@[simp] theorem State.setPcount_ra (n : BitVec 4) : (s.setPcount n).ra = s.ra := rfl
@[simp] theorem State.setPcount_fig (n : BitVec 4) : (s.setPcount n).fig = s.fig := rfl
@[simp] theorem State.setPcount_raster (n : BitVec 4) : (s.setPcount n).raster = s.raster := rfl
@[simp] theorem State.setPcount_drq (n : BitVec 4) : (s.setPcount n).drq = s.drq := rfl
@[simp] theorem State.setPcount_mem (n : BitVec 4) : (s.setPcount n).mem = s.mem := rfl
@[simp] theorem State.setPcount_out (n : BitVec 4) : (s.setPcount n).out = s.out := rfl
@[simp] theorem State.setPcount_cfg (n : BitVec 4) : (s.setPcount n).cfg = s.cfg := rfl
@[simp] theorem State.setPcount_events (n : BitVec 4) : (s.setPcount n).events = s.events := rfl
@[simp] theorem State.setPcount_freeCount (n : BitVec 4) : (s.setPcount n).freeCount = s.freeCount := rfl
@[simp] theorem State.setPcount_runRefused (n : BitVec 4) : (s.setPcount n).runRefused = s.runRefused := rfl

/-! `State.latchXfer` -/

@[simp] theorem State.latchXfer_fifo (t : XferType) (m : ModMode) : (s.latchXfer t m).fifo = s.fifo := rfl
@[simp] theorem State.latchXfer_fifoDir (t : XferType) (m : ModMode) : (s.latchXfer t m).fifoDir = s.fifoDir := rfl
@[simp] theorem State.latchXfer_sr (t : XferType) (m : ModMode) : (s.latchXfer t m).sr = s.sr := rfl
@[simp] theorem State.latchXfer_disp (t : XferType) (m : ModMode) : (s.latchXfer t m).disp = { s.disp with xtype := t, mod := m } := rfl
@[simp] theorem State.latchXfer_geom (t : XferType) (m : ModMode) : (s.latchXfer t m).geom = s.geom := rfl
@[simp] theorem State.latchXfer_pitch (t : XferType) (m : ModMode) : (s.latchXfer t m).pitch = s.pitch := rfl
@[simp] theorem State.latchXfer_de (t : XferType) (m : ModMode) : (s.latchXfer t m).de = s.de := rfl
@[simp] theorem State.latchXfer_master (t : XferType) (m : ModMode) : (s.latchXfer t m).master = s.master := rfl
@[simp] theorem State.latchXfer_cursor (t : XferType) (m : ModMode) : (s.latchXfer t m).cursor = s.cursor := rfl
@[simp] theorem State.latchXfer_zoom (t : XferType) (m : ModMode) : (s.latchXfer t m).zoom = s.zoom := rfl
@[simp] theorem State.latchXfer_addr (t : XferType) (m : ModMode) : (s.latchXfer t m).addr = s.addr := rfl
@[simp] theorem State.latchXfer_lad (t : XferType) (m : ModMode) : (s.latchXfer t m).lad = s.lad := rfl
@[simp] theorem State.latchXfer_ra (t : XferType) (m : ModMode) : (s.latchXfer t m).ra = s.ra := rfl
@[simp] theorem State.latchXfer_fig (t : XferType) (m : ModMode) : (s.latchXfer t m).fig = s.fig := rfl
@[simp] theorem State.latchXfer_raster (t : XferType) (m : ModMode) : (s.latchXfer t m).raster = s.raster := rfl
@[simp] theorem State.latchXfer_drq (t : XferType) (m : ModMode) : (s.latchXfer t m).drq = s.drq := rfl
@[simp] theorem State.latchXfer_mem (t : XferType) (m : ModMode) : (s.latchXfer t m).mem = s.mem := rfl
@[simp] theorem State.latchXfer_out (t : XferType) (m : ModMode) : (s.latchXfer t m).out = s.out := rfl
@[simp] theorem State.latchXfer_cfg (t : XferType) (m : ModMode) : (s.latchXfer t m).cfg = s.cfg := rfl
@[simp] theorem State.latchXfer_events (t : XferType) (m : ModMode) : (s.latchXfer t m).events = s.events := rfl
@[simp] theorem State.latchXfer_freeCount (t : XferType) (m : ModMode) : (s.latchXfer t m).freeCount = s.freeCount := rfl
@[simp] theorem State.latchXfer_runRefused (t : XferType) (m : ModMode) : (s.latchXfer t m).runRefused = s.runRefused := rfl

/-! `State.setStatus` -/

@[simp] theorem State.setStatus_fifo (b : StatusBit) (v : Bool) : (s.setStatus b v).fifo = s.fifo := rfl
@[simp] theorem State.setStatus_fifoDir (b : StatusBit) (v : Bool) : (s.setStatus b v).fifoDir = s.fifoDir := rfl
@[simp] theorem State.setStatus_sr (b : StatusBit) (v : Bool) : (s.setStatus b v).sr = statusPut s.sr b v := rfl
@[simp] theorem State.setStatus_disp (b : StatusBit) (v : Bool) : (s.setStatus b v).disp = s.disp := rfl
@[simp] theorem State.setStatus_geom (b : StatusBit) (v : Bool) : (s.setStatus b v).geom = s.geom := rfl
@[simp] theorem State.setStatus_pitch (b : StatusBit) (v : Bool) : (s.setStatus b v).pitch = s.pitch := rfl
@[simp] theorem State.setStatus_de (b : StatusBit) (v : Bool) : (s.setStatus b v).de = s.de := rfl
@[simp] theorem State.setStatus_master (b : StatusBit) (v : Bool) : (s.setStatus b v).master = s.master := rfl
@[simp] theorem State.setStatus_cursor (b : StatusBit) (v : Bool) : (s.setStatus b v).cursor = s.cursor := rfl
@[simp] theorem State.setStatus_zoom (b : StatusBit) (v : Bool) : (s.setStatus b v).zoom = s.zoom := rfl
@[simp] theorem State.setStatus_addr (b : StatusBit) (v : Bool) : (s.setStatus b v).addr = s.addr := rfl
@[simp] theorem State.setStatus_lad (b : StatusBit) (v : Bool) : (s.setStatus b v).lad = s.lad := rfl
@[simp] theorem State.setStatus_ra (b : StatusBit) (v : Bool) : (s.setStatus b v).ra = s.ra := rfl
@[simp] theorem State.setStatus_fig (b : StatusBit) (v : Bool) : (s.setStatus b v).fig = s.fig := rfl
@[simp] theorem State.setStatus_raster (b : StatusBit) (v : Bool) : (s.setStatus b v).raster = s.raster := rfl
@[simp] theorem State.setStatus_drq (b : StatusBit) (v : Bool) : (s.setStatus b v).drq = s.drq := rfl
@[simp] theorem State.setStatus_mem (b : StatusBit) (v : Bool) : (s.setStatus b v).mem = s.mem := rfl
@[simp] theorem State.setStatus_out (b : StatusBit) (v : Bool) : (s.setStatus b v).out = s.out := rfl
@[simp] theorem State.setStatus_cfg (b : StatusBit) (v : Bool) : (s.setStatus b v).cfg = s.cfg := rfl
@[simp] theorem State.setStatus_events (b : StatusBit) (v : Bool) : (s.setStatus b v).events = s.events := rfl
@[simp] theorem State.setStatus_freeCount (b : StatusBit) (v : Bool) : (s.setStatus b v).freeCount = s.freeCount := rfl
@[simp] theorem State.setStatus_runRefused (b : StatusBit) (v : Bool) : (s.setStatus b v).runRefused = s.runRefused := rfl

/-! `State.memWrite` -/

@[simp] theorem State.memWrite_fifo (a : VAddr) (v : Word) : (s.memWrite a v).fifo = s.fifo := rfl
@[simp] theorem State.memWrite_fifoDir (a : VAddr) (v : Word) : (s.memWrite a v).fifoDir = s.fifoDir := rfl
@[simp] theorem State.memWrite_sr (a : VAddr) (v : Word) : (s.memWrite a v).sr = s.sr := rfl
@[simp] theorem State.memWrite_disp (a : VAddr) (v : Word) : (s.memWrite a v).disp = s.disp := rfl
@[simp] theorem State.memWrite_geom (a : VAddr) (v : Word) : (s.memWrite a v).geom = s.geom := rfl
@[simp] theorem State.memWrite_pitch (a : VAddr) (v : Word) : (s.memWrite a v).pitch = s.pitch := rfl
@[simp] theorem State.memWrite_de (a : VAddr) (v : Word) : (s.memWrite a v).de = s.de := rfl
@[simp] theorem State.memWrite_master (a : VAddr) (v : Word) : (s.memWrite a v).master = s.master := rfl
@[simp] theorem State.memWrite_cursor (a : VAddr) (v : Word) : (s.memWrite a v).cursor = s.cursor := rfl
@[simp] theorem State.memWrite_zoom (a : VAddr) (v : Word) : (s.memWrite a v).zoom = s.zoom := rfl
@[simp] theorem State.memWrite_addr (a : VAddr) (v : Word) : (s.memWrite a v).addr = s.addr := rfl
@[simp] theorem State.memWrite_lad (a : VAddr) (v : Word) : (s.memWrite a v).lad = s.lad := rfl
@[simp] theorem State.memWrite_ra (a : VAddr) (v : Word) : (s.memWrite a v).ra = s.ra := rfl
@[simp] theorem State.memWrite_fig (a : VAddr) (v : Word) : (s.memWrite a v).fig = s.fig := rfl
@[simp] theorem State.memWrite_raster (a : VAddr) (v : Word) : (s.memWrite a v).raster = s.raster := rfl
@[simp] theorem State.memWrite_drq (a : VAddr) (v : Word) : (s.memWrite a v).drq = s.drq := rfl
@[simp] theorem State.memWrite_mem (a : VAddr) (v : Word) : (s.memWrite a v).mem = Memory.writeWord s.mem (s.vramIndex a) v := rfl
@[simp] theorem State.memWrite_out (a : VAddr) (v : Word) : (s.memWrite a v).out = s.out := rfl
@[simp] theorem State.memWrite_cfg (a : VAddr) (v : Word) : (s.memWrite a v).cfg = s.cfg := rfl
@[simp] theorem State.memWrite_events (a : VAddr) (v : Word) : (s.memWrite a v).events = s.events := rfl
@[simp] theorem State.memWrite_freeCount (a : VAddr) (v : Word) : (s.memWrite a v).freeCount = s.freeCount := rfl
@[simp] theorem State.memWrite_runRefused (a : VAddr) (v : Word) : (s.memWrite a v).runRefused = s.runRefused := rfl

/-! `State.fifoClear` -/

@[simp] theorem State.fifoClear_fifo : (s.fifoClear).fifo = [] := rfl
@[simp] theorem State.fifoClear_fifoDir : (s.fifoClear).fifoDir = s.fifoDir := rfl
@[simp] theorem State.fifoClear_sr : (s.fifoClear).sr = statusCleared s.sr := rfl
@[simp] theorem State.fifoClear_disp : (s.fifoClear).disp = s.disp := rfl
@[simp] theorem State.fifoClear_geom : (s.fifoClear).geom = s.geom := rfl
@[simp] theorem State.fifoClear_pitch : (s.fifoClear).pitch = s.pitch := rfl
@[simp] theorem State.fifoClear_de : (s.fifoClear).de = s.de := rfl
@[simp] theorem State.fifoClear_master : (s.fifoClear).master = s.master := rfl
@[simp] theorem State.fifoClear_cursor : (s.fifoClear).cursor = s.cursor := rfl
@[simp] theorem State.fifoClear_zoom : (s.fifoClear).zoom = s.zoom := rfl
@[simp] theorem State.fifoClear_addr : (s.fifoClear).addr = s.addr := rfl
@[simp] theorem State.fifoClear_lad : (s.fifoClear).lad = s.lad := rfl
@[simp] theorem State.fifoClear_ra : (s.fifoClear).ra = s.ra := rfl
@[simp] theorem State.fifoClear_fig : (s.fifoClear).fig = s.fig := rfl
@[simp] theorem State.fifoClear_raster : (s.fifoClear).raster = s.raster := rfl
@[simp] theorem State.fifoClear_drq : (s.fifoClear).drq = s.drq := rfl
@[simp] theorem State.fifoClear_mem : (s.fifoClear).mem = s.mem := rfl
@[simp] theorem State.fifoClear_out : (s.fifoClear).out = s.out := rfl
@[simp] theorem State.fifoClear_cfg : (s.fifoClear).cfg = s.cfg := rfl
@[simp] theorem State.fifoClear_events : (s.fifoClear).events = s.events := rfl
@[simp] theorem State.fifoClear_freeCount : (s.fifoClear).freeCount = s.freeCount := rfl
@[simp] theorem State.fifoClear_runRefused : (s.fifoClear).runRefused = s.runRefused := rfl

/-! `State.advanceEad` -/

@[simp] theorem State.advanceEad_fifo (d : BitVec 3) : (s.advanceEad d).fifo = s.fifo := rfl
@[simp] theorem State.advanceEad_fifoDir (d : BitVec 3) : (s.advanceEad d).fifoDir = s.fifoDir := rfl
@[simp] theorem State.advanceEad_sr (d : BitVec 3) : (s.advanceEad d).sr = s.sr := rfl
@[simp] theorem State.advanceEad_disp (d : BitVec 3) : (s.advanceEad d).disp = s.disp := rfl
@[simp] theorem State.advanceEad_geom (d : BitVec 3) : (s.advanceEad d).geom = s.geom := rfl
@[simp] theorem State.advanceEad_pitch (d : BitVec 3) : (s.advanceEad d).pitch = s.pitch := rfl
@[simp] theorem State.advanceEad_de (d : BitVec 3) : (s.advanceEad d).de = s.de := rfl
@[simp] theorem State.advanceEad_master (d : BitVec 3) : (s.advanceEad d).master = s.master := rfl
@[simp] theorem State.advanceEad_cursor (d : BitVec 3) : (s.advanceEad d).cursor = s.cursor := rfl
@[simp] theorem State.advanceEad_zoom (d : BitVec 3) : (s.advanceEad d).zoom = s.zoom := rfl
@[simp] theorem State.advanceEad_addr (d : BitVec 3) : (s.advanceEad d).addr = s.addr.advance s.pitch d := rfl
@[simp] theorem State.advanceEad_lad (d : BitVec 3) : (s.advanceEad d).lad = s.lad := rfl
@[simp] theorem State.advanceEad_ra (d : BitVec 3) : (s.advanceEad d).ra = s.ra := rfl
@[simp] theorem State.advanceEad_fig (d : BitVec 3) : (s.advanceEad d).fig = s.fig := rfl
@[simp] theorem State.advanceEad_raster (d : BitVec 3) : (s.advanceEad d).raster = s.raster := rfl
@[simp] theorem State.advanceEad_drq (d : BitVec 3) : (s.advanceEad d).drq = s.drq := rfl
@[simp] theorem State.advanceEad_mem (d : BitVec 3) : (s.advanceEad d).mem = s.mem := rfl
@[simp] theorem State.advanceEad_out (d : BitVec 3) : (s.advanceEad d).out = s.out := rfl
@[simp] theorem State.advanceEad_cfg (d : BitVec 3) : (s.advanceEad d).cfg = s.cfg := rfl
@[simp] theorem State.advanceEad_events (d : BitVec 3) : (s.advanceEad d).events = s.events := rfl
@[simp] theorem State.advanceEad_freeCount (d : BitVec 3) : (s.advanceEad d).freeCount = s.freeCount := rfl
@[simp] theorem State.advanceEad_runRefused (d : BitVec 3) : (s.advanceEad d).runRefused = s.runRefused := rfl

/-! `State.clearRepeat` -/

@[simp] theorem State.clearRepeat_fifo : (s.clearRepeat).fifo = s.fifo := rfl
@[simp] theorem State.clearRepeat_fifoDir : (s.clearRepeat).fifoDir = s.fifoDir := rfl
@[simp] theorem State.clearRepeat_sr : (s.clearRepeat).sr = s.sr := rfl
@[simp] theorem State.clearRepeat_disp : (s.clearRepeat).disp = s.disp := rfl
@[simp] theorem State.clearRepeat_geom : (s.clearRepeat).geom = s.geom := rfl
@[simp] theorem State.clearRepeat_pitch : (s.clearRepeat).pitch = s.pitch := rfl
@[simp] theorem State.clearRepeat_de : (s.clearRepeat).de = s.de := rfl
@[simp] theorem State.clearRepeat_master : (s.clearRepeat).master = s.master := rfl
@[simp] theorem State.clearRepeat_cursor : (s.clearRepeat).cursor = s.cursor := rfl
@[simp] theorem State.clearRepeat_zoom : (s.clearRepeat).zoom = s.zoom := rfl
@[simp] theorem State.clearRepeat_addr : (s.clearRepeat).addr = s.addr := rfl
@[simp] theorem State.clearRepeat_lad : (s.clearRepeat).lad = s.lad := rfl
@[simp] theorem State.clearRepeat_ra : (s.clearRepeat).ra = s.ra := rfl
@[simp] theorem State.clearRepeat_fig : (s.clearRepeat).fig = { s.fig with dc := 0#14 } := rfl
@[simp] theorem State.clearRepeat_raster : (s.clearRepeat).raster = s.raster := rfl
@[simp] theorem State.clearRepeat_drq : (s.clearRepeat).drq = s.drq := rfl
@[simp] theorem State.clearRepeat_mem : (s.clearRepeat).mem = s.mem := rfl
@[simp] theorem State.clearRepeat_out : (s.clearRepeat).out = s.out := rfl
@[simp] theorem State.clearRepeat_cfg : (s.clearRepeat).cfg = s.cfg := rfl
@[simp] theorem State.clearRepeat_events : (s.clearRepeat).events = s.events := rfl
@[simp] theorem State.clearRepeat_freeCount : (s.clearRepeat).freeCount = s.freeCount := rfl
@[simp] theorem State.clearRepeat_runRefused : (s.clearRepeat).runRefused = s.runRefused := rfl

/-! `State.rearm` -/

@[simp] theorem State.rearm_fifo : (s.rearm).fifo = s.fifo := rfl
@[simp] theorem State.rearm_fifoDir : (s.rearm).fifoDir = s.fifoDir := rfl
@[simp] theorem State.rearm_sr : (s.rearm).sr = s.sr := rfl
@[simp] theorem State.rearm_disp : (s.rearm).disp = s.disp := rfl
@[simp] theorem State.rearm_geom : (s.rearm).geom = s.geom := rfl
@[simp] theorem State.rearm_pitch : (s.rearm).pitch = s.pitch := rfl
@[simp] theorem State.rearm_de : (s.rearm).de = s.de := rfl
@[simp] theorem State.rearm_master : (s.rearm).master = s.master := rfl
@[simp] theorem State.rearm_cursor : (s.rearm).cursor = s.cursor := rfl
@[simp] theorem State.rearm_zoom : (s.rearm).zoom = s.zoom := rfl
@[simp] theorem State.rearm_addr : (s.rearm).addr = s.addr := rfl
@[simp] theorem State.rearm_lad : (s.rearm).lad = s.lad := rfl
@[simp] theorem State.rearm_ra : (s.rearm).ra = s.ra := rfl
@[simp] theorem State.rearm_fig : (s.rearm).fig = s.fig := rfl
@[simp] theorem State.rearm_raster : (s.rearm).raster = { s.raster with hnext := 0#9, vnext := 0#11, vwait := false } := rfl
@[simp] theorem State.rearm_drq : (s.rearm).drq = s.drq := rfl
@[simp] theorem State.rearm_mem : (s.rearm).mem = s.mem := rfl
@[simp] theorem State.rearm_out : (s.rearm).out = s.out := rfl
@[simp] theorem State.rearm_cfg : (s.rearm).cfg = s.cfg := rfl
@[simp] theorem State.rearm_events : (s.rearm).events = s.events := rfl
@[simp] theorem State.rearm_freeCount : (s.rearm).freeCount = s.freeCount := rfl
@[simp] theorem State.rearm_runRefused : (s.rearm).runRefused = s.runRefused := rfl

/-! `State.setDisplayEnable` -/

@[simp] theorem State.setDisplayEnable_fifo (f : Bool) : (s.setDisplayEnable f).fifo = s.fifo := rfl
@[simp] theorem State.setDisplayEnable_fifoDir (f : Bool) : (s.setDisplayEnable f).fifoDir = s.fifoDir := rfl
@[simp] theorem State.setDisplayEnable_sr (f : Bool) : (s.setDisplayEnable f).sr = s.sr := rfl
@[simp] theorem State.setDisplayEnable_disp (f : Bool) : (s.setDisplayEnable f).disp = s.disp := rfl
@[simp] theorem State.setDisplayEnable_geom (f : Bool) : (s.setDisplayEnable f).geom = s.geom := rfl
@[simp] theorem State.setDisplayEnable_pitch (f : Bool) : (s.setDisplayEnable f).pitch = s.pitch := rfl
@[simp] theorem State.setDisplayEnable_de (f : Bool) : (s.setDisplayEnable f).de = f := rfl
@[simp] theorem State.setDisplayEnable_master (f : Bool) : (s.setDisplayEnable f).master = s.master := rfl
@[simp] theorem State.setDisplayEnable_cursor (f : Bool) : (s.setDisplayEnable f).cursor = s.cursor := rfl
@[simp] theorem State.setDisplayEnable_zoom (f : Bool) : (s.setDisplayEnable f).zoom = s.zoom := rfl
@[simp] theorem State.setDisplayEnable_addr (f : Bool) : (s.setDisplayEnable f).addr = s.addr := rfl
@[simp] theorem State.setDisplayEnable_lad (f : Bool) : (s.setDisplayEnable f).lad = s.lad := rfl
@[simp] theorem State.setDisplayEnable_ra (f : Bool) : (s.setDisplayEnable f).ra = s.ra := rfl
@[simp] theorem State.setDisplayEnable_fig (f : Bool) : (s.setDisplayEnable f).fig = s.fig := rfl
@[simp] theorem State.setDisplayEnable_raster (f : Bool) : (s.setDisplayEnable f).raster = s.raster := rfl
@[simp] theorem State.setDisplayEnable_drq (f : Bool) : (s.setDisplayEnable f).drq = s.drq := rfl
@[simp] theorem State.setDisplayEnable_mem (f : Bool) : (s.setDisplayEnable f).mem = s.mem := rfl
@[simp] theorem State.setDisplayEnable_out (f : Bool) : (s.setDisplayEnable f).out = s.out := rfl
@[simp] theorem State.setDisplayEnable_cfg (f : Bool) : (s.setDisplayEnable f).cfg = s.cfg := rfl
@[simp] theorem State.setDisplayEnable_events (f : Bool) : (s.setDisplayEnable f).events = s.events := rfl
@[simp] theorem State.setDisplayEnable_freeCount (f : Bool) : (s.setDisplayEnable f).freeCount = s.freeCount := rfl
@[simp] theorem State.setDisplayEnable_runRefused (f : Bool) : (s.setDisplayEnable f).runRefused = s.runRefused := rfl

/-! `State.loadCommand` -/

@[simp] theorem State.loadCommand_fifo (b : Byte) : (s.loadCommand b).fifo = s.fifo := rfl
@[simp] theorem State.loadCommand_fifoDir (b : Byte) : (s.loadCommand b).fifoDir = s.fifoDir := rfl
@[simp] theorem State.loadCommand_sr (b : Byte) : (s.loadCommand b).sr = s.sr := rfl
@[simp] theorem State.loadCommand_geom (b : Byte) : (s.loadCommand b).geom = s.geom := rfl
@[simp] theorem State.loadCommand_pitch (b : Byte) : (s.loadCommand b).pitch = s.pitch := rfl
@[simp] theorem State.loadCommand_de (b : Byte) : (s.loadCommand b).de = s.de := rfl
@[simp] theorem State.loadCommand_master (b : Byte) : (s.loadCommand b).master = s.master := rfl
@[simp] theorem State.loadCommand_cursor (b : Byte) : (s.loadCommand b).cursor = s.cursor := rfl
@[simp] theorem State.loadCommand_zoom (b : Byte) : (s.loadCommand b).zoom = s.zoom := rfl
@[simp] theorem State.loadCommand_addr (b : Byte) : (s.loadCommand b).addr = s.addr := rfl
@[simp] theorem State.loadCommand_lad (b : Byte) : (s.loadCommand b).lad = s.lad := rfl
@[simp] theorem State.loadCommand_ra (b : Byte) : (s.loadCommand b).ra = s.ra := rfl
@[simp] theorem State.loadCommand_fig (b : Byte) : (s.loadCommand b).fig = s.fig := rfl
@[simp] theorem State.loadCommand_raster (b : Byte) : (s.loadCommand b).raster = s.raster := rfl
@[simp] theorem State.loadCommand_drq (b : Byte) : (s.loadCommand b).drq = s.drq := rfl
@[simp] theorem State.loadCommand_mem (b : Byte) : (s.loadCommand b).mem = s.mem := rfl
@[simp] theorem State.loadCommand_out (b : Byte) : (s.loadCommand b).out = s.out := rfl
@[simp] theorem State.loadCommand_cfg (b : Byte) : (s.loadCommand b).cfg = s.cfg := rfl
@[simp] theorem State.loadCommand_events (b : Byte) : (s.loadCommand b).events = s.events := rfl
@[simp] theorem State.loadCommand_freeCount (b : Byte) : (s.loadCommand b).freeCount = s.freeCount := rfl
@[simp] theorem State.loadCommand_runRefused (b : Byte) : (s.loadCommand b).runRefused = s.runRefused := rfl

/-! `State.storeParam` -/

@[simp] theorem State.storeParam_fifo (b : Byte) : (s.storeParam b).fifo = s.fifo := rfl
@[simp] theorem State.storeParam_fifoDir (b : Byte) : (s.storeParam b).fifoDir = s.fifoDir := rfl
@[simp] theorem State.storeParam_sr (b : Byte) : (s.storeParam b).sr = s.sr := rfl
@[simp] theorem State.storeParam_geom (b : Byte) : (s.storeParam b).geom = s.geom := rfl
@[simp] theorem State.storeParam_pitch (b : Byte) : (s.storeParam b).pitch = s.pitch := rfl
@[simp] theorem State.storeParam_de (b : Byte) : (s.storeParam b).de = s.de := rfl
@[simp] theorem State.storeParam_master (b : Byte) : (s.storeParam b).master = s.master := rfl
@[simp] theorem State.storeParam_cursor (b : Byte) : (s.storeParam b).cursor = s.cursor := rfl
@[simp] theorem State.storeParam_zoom (b : Byte) : (s.storeParam b).zoom = s.zoom := rfl
@[simp] theorem State.storeParam_addr (b : Byte) : (s.storeParam b).addr = s.addr := rfl
@[simp] theorem State.storeParam_lad (b : Byte) : (s.storeParam b).lad = s.lad := rfl
@[simp] theorem State.storeParam_ra (b : Byte) : (s.storeParam b).ra = s.ra := rfl
@[simp] theorem State.storeParam_fig (b : Byte) : (s.storeParam b).fig = s.fig := rfl
@[simp] theorem State.storeParam_raster (b : Byte) : (s.storeParam b).raster = s.raster := rfl
@[simp] theorem State.storeParam_drq (b : Byte) : (s.storeParam b).drq = s.drq := rfl
@[simp] theorem State.storeParam_mem (b : Byte) : (s.storeParam b).mem = s.mem := rfl
@[simp] theorem State.storeParam_out (b : Byte) : (s.storeParam b).out = s.out := rfl
@[simp] theorem State.storeParam_cfg (b : Byte) : (s.storeParam b).cfg = s.cfg := rfl
@[simp] theorem State.storeParam_events (b : Byte) : (s.storeParam b).events = s.events := rfl
@[simp] theorem State.storeParam_freeCount (b : Byte) : (s.storeParam b).freeCount = s.freeCount := rfl
@[simp] theorem State.storeParam_runRefused (b : Byte) : (s.storeParam b).runRefused = s.runRefused := rfl

/-! `State.startPram` -/

@[simp] theorem State.startPram_fifo (n : BitVec 4) : (s.startPram n).fifo = s.fifo := rfl
@[simp] theorem State.startPram_fifoDir (n : BitVec 4) : (s.startPram n).fifoDir = s.fifoDir := rfl
@[simp] theorem State.startPram_sr (n : BitVec 4) : (s.startPram n).sr = s.sr := rfl
@[simp] theorem State.startPram_disp (n : BitVec 4) : (s.startPram n).disp = { s.disp with raPtr := n.setWidth 5 } := rfl
@[simp] theorem State.startPram_geom (n : BitVec 4) : (s.startPram n).geom = s.geom := rfl
@[simp] theorem State.startPram_pitch (n : BitVec 4) : (s.startPram n).pitch = s.pitch := rfl
@[simp] theorem State.startPram_de (n : BitVec 4) : (s.startPram n).de = s.de := rfl
@[simp] theorem State.startPram_master (n : BitVec 4) : (s.startPram n).master = s.master := rfl
@[simp] theorem State.startPram_cursor (n : BitVec 4) : (s.startPram n).cursor = s.cursor := rfl
@[simp] theorem State.startPram_zoom (n : BitVec 4) : (s.startPram n).zoom = s.zoom := rfl
@[simp] theorem State.startPram_addr (n : BitVec 4) : (s.startPram n).addr = s.addr := rfl
@[simp] theorem State.startPram_lad (n : BitVec 4) : (s.startPram n).lad = s.lad := rfl
@[simp] theorem State.startPram_ra (n : BitVec 4) : (s.startPram n).ra = s.ra := rfl
@[simp] theorem State.startPram_fig (n : BitVec 4) : (s.startPram n).fig = s.fig := rfl
@[simp] theorem State.startPram_raster (n : BitVec 4) : (s.startPram n).raster = s.raster := rfl
@[simp] theorem State.startPram_drq (n : BitVec 4) : (s.startPram n).drq = s.drq := rfl
@[simp] theorem State.startPram_mem (n : BitVec 4) : (s.startPram n).mem = s.mem := rfl
@[simp] theorem State.startPram_out (n : BitVec 4) : (s.startPram n).out = s.out := rfl
@[simp] theorem State.startPram_cfg (n : BitVec 4) : (s.startPram n).cfg = s.cfg := rfl
@[simp] theorem State.startPram_events (n : BitVec 4) : (s.startPram n).events = s.events := rfl
@[simp] theorem State.startPram_freeCount (n : BitVec 4) : (s.startPram n).freeCount = s.freeCount := rfl
@[simp] theorem State.startPram_runRefused (n : BitVec 4) : (s.startPram n).runRefused = s.runRefused := rfl

/-! `State.markRefused` -/

@[simp] theorem State.markRefused_fifo : (s.markRefused).fifo = s.fifo := rfl
@[simp] theorem State.markRefused_fifoDir : (s.markRefused).fifoDir = s.fifoDir := rfl
@[simp] theorem State.markRefused_sr : (s.markRefused).sr = s.sr := rfl
@[simp] theorem State.markRefused_disp : (s.markRefused).disp = s.disp := rfl
@[simp] theorem State.markRefused_geom : (s.markRefused).geom = s.geom := rfl
@[simp] theorem State.markRefused_pitch : (s.markRefused).pitch = s.pitch := rfl
@[simp] theorem State.markRefused_de : (s.markRefused).de = s.de := rfl
@[simp] theorem State.markRefused_master : (s.markRefused).master = s.master := rfl
@[simp] theorem State.markRefused_cursor : (s.markRefused).cursor = s.cursor := rfl
@[simp] theorem State.markRefused_zoom : (s.markRefused).zoom = s.zoom := rfl
@[simp] theorem State.markRefused_addr : (s.markRefused).addr = s.addr := rfl
@[simp] theorem State.markRefused_lad : (s.markRefused).lad = s.lad := rfl
@[simp] theorem State.markRefused_ra : (s.markRefused).ra = s.ra := rfl
@[simp] theorem State.markRefused_fig : (s.markRefused).fig = s.fig := rfl
@[simp] theorem State.markRefused_raster : (s.markRefused).raster = s.raster := rfl
@[simp] theorem State.markRefused_drq : (s.markRefused).drq = s.drq := rfl
@[simp] theorem State.markRefused_mem : (s.markRefused).mem = s.mem := rfl
@[simp] theorem State.markRefused_out : (s.markRefused).out = s.out := rfl
@[simp] theorem State.markRefused_cfg : (s.markRefused).cfg = s.cfg := rfl
@[simp] theorem State.markRefused_events : (s.markRefused).events = s.events := rfl
@[simp] theorem State.markRefused_freeCount : (s.markRefused).freeCount = s.freeCount + 1 := rfl
@[simp] theorem State.markRefused_runRefused : (s.markRefused).runRefused = true := rfl

end Sys2Proof.Machine
end

