-- ==== Sys2Proof/Laws/Frames.lean ====
section
/-! SUPPORT. Frames: for every composite operation, the fields of the state it leaves unchanged. -/

namespace Sys2Proof.Machine

/-- What one step keeps, every number of steps keeps. -/
theorem iterate_keeps {α β : Type} (f : α → β) (g : α → α) (h : ∀ a, f (g a) = f a) (n : Nat) (a : α) :
    f (Nat.iterate g n a) = f a := by
  induction n generalizing a with
  | zero => rfl
  | succ n ih => exact (ih (g a)).trans (h a)

/-- What one step of a fold keeps, the fold keeps. -/
theorem foldl_keeps {α β γ : Type} (f : α → β) (g : α → γ → α) (h : ∀ a c, f (g a c) = f a) (l : List γ) (a : α) :
    f (l.foldl g a) = f a := by
  induction l generalizing a with
  | nil => rfl
  | cons c l ih => exact (ih (g a c)).trans (h a c)

variable (s : State)

/-- What `State.enqueue` leaves unchanged (R80). -/
@[simp] theorem State.enqueue_frame (b : Byte) (c : Bool) :
    (s.enqueue b c).fifoDir = s.fifoDir ∧ (s.enqueue b c).disp = s.disp ∧ (s.enqueue b c).geom = s.geom ∧
    (s.enqueue b c).pitch = s.pitch ∧ (s.enqueue b c).de = s.de ∧ (s.enqueue b c).master = s.master ∧
    (s.enqueue b c).cursor = s.cursor ∧ (s.enqueue b c).zoom = s.zoom ∧ (s.enqueue b c).addr = s.addr ∧
    (s.enqueue b c).lad = s.lad ∧ (s.enqueue b c).ra = s.ra ∧ (s.enqueue b c).fig = s.fig ∧
    (s.enqueue b c).raster = s.raster ∧ (s.enqueue b c).drq = s.drq ∧ (s.enqueue b c).mem = s.mem ∧
    (s.enqueue b c).cfg = s.cfg ∧ (s.enqueue b c).events = s.events ∧ (s.enqueue b c).freeCount = s.freeCount ∧
    (s.enqueue b c).runRefused = s.runRefused := by
  unfold State.enqueue
  split <;> simp

/-- What `State.enqueueResults` leaves unchanged (R158, R180, R182). -/
@[simp] theorem State.enqueueResults_frame (bs : List Byte) :
    (s.enqueueResults bs).fifoDir = s.fifoDir ∧ (s.enqueueResults bs).disp = s.disp ∧
    (s.enqueueResults bs).geom = s.geom ∧ (s.enqueueResults bs).pitch = s.pitch ∧
    (s.enqueueResults bs).de = s.de ∧ (s.enqueueResults bs).master = s.master ∧
    (s.enqueueResults bs).cursor = s.cursor ∧ (s.enqueueResults bs).zoom = s.zoom ∧
    (s.enqueueResults bs).addr = s.addr ∧ (s.enqueueResults bs).lad = s.lad ∧ (s.enqueueResults bs).ra = s.ra ∧
    (s.enqueueResults bs).fig = s.fig ∧ (s.enqueueResults bs).raster = s.raster ∧
    (s.enqueueResults bs).drq = s.drq ∧ (s.enqueueResults bs).mem = s.mem ∧ (s.enqueueResults bs).cfg = s.cfg ∧
    (s.enqueueResults bs).events = s.events ∧ (s.enqueueResults bs).freeCount = s.freeCount ∧
    (s.enqueueResults bs).runRefused = s.runRefused := by
  unfold State.enqueueResults
  refine ⟨foldl_keeps State.fifoDir _ ?_ _ _, foldl_keeps State.disp _ ?_ _ _, foldl_keeps State.geom _ ?_ _ _,
    foldl_keeps State.pitch _ ?_ _ _, foldl_keeps State.de _ ?_ _ _, foldl_keeps State.master _ ?_ _ _,
    foldl_keeps State.cursor _ ?_ _ _, foldl_keeps State.zoom _ ?_ _ _, foldl_keeps State.addr _ ?_ _ _,
    foldl_keeps State.lad _ ?_ _ _, foldl_keeps State.ra _ ?_ _ _, foldl_keeps State.fig _ ?_ _ _,
    foldl_keeps State.raster _ ?_ _ _, foldl_keeps State.drq _ ?_ _ _, foldl_keeps State.mem _ ?_ _ _,
    foldl_keeps State.cfg _ ?_ _ _, foldl_keeps State.events _ ?_ _ _, foldl_keeps State.freeCount _ ?_ _ _,
    foldl_keeps State.runRefused _ ?_ _ _⟩ <;>
    simp

/-- What `State.setDirection` leaves unchanged (R82). -/
@[simp] theorem State.setDirection_frame (d : FifoDir) :
    (s.setDirection d).disp = s.disp ∧ (s.setDirection d).geom = s.geom ∧ (s.setDirection d).pitch = s.pitch ∧
    (s.setDirection d).de = s.de ∧ (s.setDirection d).master = s.master ∧
    (s.setDirection d).cursor = s.cursor ∧ (s.setDirection d).zoom = s.zoom ∧
    (s.setDirection d).addr = s.addr ∧ (s.setDirection d).lad = s.lad ∧ (s.setDirection d).ra = s.ra ∧
    (s.setDirection d).fig = s.fig ∧ (s.setDirection d).raster = s.raster ∧ (s.setDirection d).drq = s.drq ∧
    (s.setDirection d).mem = s.mem ∧ (s.setDirection d).out = s.out ∧ (s.setDirection d).cfg = s.cfg ∧
    (s.setDirection d).events = s.events ∧ (s.setDirection d).freeCount = s.freeCount ∧
    (s.setDirection d).runRefused = s.runRefused := by
  unfold State.setDirection
  split <;> simp

/-- What `State.modifyAtEad` leaves unchanged (R155, R162). -/
@[simp] theorem State.modifyAtEad_frame (x l : Word) :
    (s.modifyAtEad x l).fifo = s.fifo ∧ (s.modifyAtEad x l).fifoDir = s.fifoDir ∧
    (s.modifyAtEad x l).sr = s.sr ∧ (s.modifyAtEad x l).disp = s.disp ∧ (s.modifyAtEad x l).geom = s.geom ∧
    (s.modifyAtEad x l).pitch = s.pitch ∧ (s.modifyAtEad x l).de = s.de ∧
    (s.modifyAtEad x l).master = s.master ∧ (s.modifyAtEad x l).cursor = s.cursor ∧
    (s.modifyAtEad x l).zoom = s.zoom ∧ (s.modifyAtEad x l).addr = s.addr ∧ (s.modifyAtEad x l).lad = s.lad ∧
    (s.modifyAtEad x l).ra = s.ra ∧ (s.modifyAtEad x l).fig = s.fig ∧ (s.modifyAtEad x l).raster = s.raster ∧
    (s.modifyAtEad x l).drq = s.drq ∧ (s.modifyAtEad x l).out = s.out ∧ (s.modifyAtEad x l).cfg = s.cfg ∧
    (s.modifyAtEad x l).events = s.events ∧ (s.modifyAtEad x l).freeCount = s.freeCount ∧
    (s.modifyAtEad x l).runRefused = s.runRefused := by
  simp [State.modifyAtEad]

/-- What `State.plot` leaves unchanged (R155, R162). -/
@[simp] theorem State.plot_frame (x l : Word) (d : BitVec 3) :
    (s.plot x l d).fifo = s.fifo ∧ (s.plot x l d).fifoDir = s.fifoDir ∧ (s.plot x l d).sr = s.sr ∧
    (s.plot x l d).disp = s.disp ∧ (s.plot x l d).geom = s.geom ∧ (s.plot x l d).pitch = s.pitch ∧
    (s.plot x l d).de = s.de ∧ (s.plot x l d).master = s.master ∧ (s.plot x l d).cursor = s.cursor ∧
    (s.plot x l d).zoom = s.zoom ∧ (s.plot x l d).lad = s.lad ∧ (s.plot x l d).ra = s.ra ∧
    (s.plot x l d).fig = s.fig ∧ (s.plot x l d).raster = s.raster ∧ (s.plot x l d).drq = s.drq ∧
    (s.plot x l d).out = s.out ∧ (s.plot x l d).cfg = s.cfg ∧ (s.plot x l d).events = s.events ∧
    (s.plot x l d).freeCount = s.freeCount ∧ (s.plot x l d).runRefused = s.runRefused := by
  simp [State.plot]

/-- What `State.countField` leaves unchanged (R227). -/
@[simp] theorem State.countField_frame :
    (s.countField).fifo = s.fifo ∧ (s.countField).fifoDir = s.fifoDir ∧ (s.countField).sr = s.sr ∧
    (s.countField).disp = s.disp ∧ (s.countField).geom = s.geom ∧ (s.countField).pitch = s.pitch ∧
    (s.countField).de = s.de ∧ (s.countField).master = s.master ∧ (s.countField).cursor = s.cursor ∧
    (s.countField).zoom = s.zoom ∧ (s.countField).addr = s.addr ∧ (s.countField).lad = s.lad ∧
    (s.countField).ra = s.ra ∧ (s.countField).fig = s.fig ∧ (s.countField).drq = s.drq ∧
    (s.countField).mem = s.mem ∧ (s.countField).out = s.out ∧ (s.countField).cfg = s.cfg ∧
    (s.countField).events = s.events ∧ (s.countField).freeCount = s.freeCount ∧
    (s.countField).runRefused = s.runRefused := by
  simp [State.countField]

/-- What `State.updateVsync` leaves unchanged (R226). -/
@[simp] theorem State.updateVsync_frame (n : Bool) :
    (s.updateVsync n).fifo = s.fifo ∧ (s.updateVsync n).fifoDir = s.fifoDir ∧ (s.updateVsync n).disp = s.disp ∧
    (s.updateVsync n).geom = s.geom ∧ (s.updateVsync n).pitch = s.pitch ∧ (s.updateVsync n).de = s.de ∧
    (s.updateVsync n).master = s.master ∧ (s.updateVsync n).cursor = s.cursor ∧
    (s.updateVsync n).zoom = s.zoom ∧ (s.updateVsync n).addr = s.addr ∧ (s.updateVsync n).lad = s.lad ∧
    (s.updateVsync n).ra = s.ra ∧ (s.updateVsync n).fig = s.fig ∧ (s.updateVsync n).raster = s.raster ∧
    (s.updateVsync n).drq = s.drq ∧ (s.updateVsync n).mem = s.mem ∧ (s.updateVsync n).cfg = s.cfg ∧
    (s.updateVsync n).events = s.events ∧ (s.updateVsync n).freeCount = s.freeCount ∧
    (s.updateVsync n).runRefused = s.runRefused := by
  unfold State.updateVsync
  split <;> simp

/-- What `State.updateHsync` leaves unchanged (R226). -/
@[simp] theorem State.updateHsync_frame (n : Bool) :
    (s.updateHsync n).fifo = s.fifo ∧ (s.updateHsync n).fifoDir = s.fifoDir ∧ (s.updateHsync n).sr = s.sr ∧
    (s.updateHsync n).disp = s.disp ∧ (s.updateHsync n).geom = s.geom ∧ (s.updateHsync n).pitch = s.pitch ∧
    (s.updateHsync n).de = s.de ∧ (s.updateHsync n).master = s.master ∧ (s.updateHsync n).cursor = s.cursor ∧
    (s.updateHsync n).zoom = s.zoom ∧ (s.updateHsync n).addr = s.addr ∧ (s.updateHsync n).lad = s.lad ∧
    (s.updateHsync n).ra = s.ra ∧ (s.updateHsync n).fig = s.fig ∧ (s.updateHsync n).drq = s.drq ∧
    (s.updateHsync n).mem = s.mem ∧ (s.updateHsync n).cfg = s.cfg ∧ (s.updateHsync n).events = s.events ∧
    (s.updateHsync n).freeCount = s.freeCount ∧ (s.updateHsync n).runRefused = s.runRefused := by
  unfold State.updateHsync
  split <;> simp

/-- What `State.updateBlank` leaves unchanged (R226). -/
@[simp] theorem State.updateBlank_frame (n : Bool) :
    (s.updateBlank n).fifo = s.fifo ∧ (s.updateBlank n).fifoDir = s.fifoDir ∧ (s.updateBlank n).disp = s.disp ∧
    (s.updateBlank n).geom = s.geom ∧ (s.updateBlank n).pitch = s.pitch ∧ (s.updateBlank n).de = s.de ∧
    (s.updateBlank n).master = s.master ∧ (s.updateBlank n).cursor = s.cursor ∧
    (s.updateBlank n).zoom = s.zoom ∧ (s.updateBlank n).addr = s.addr ∧ (s.updateBlank n).lad = s.lad ∧
    (s.updateBlank n).ra = s.ra ∧ (s.updateBlank n).fig = s.fig ∧ (s.updateBlank n).raster = s.raster ∧
    (s.updateBlank n).drq = s.drq ∧ (s.updateBlank n).mem = s.mem ∧ (s.updateBlank n).cfg = s.cfg ∧
    (s.updateBlank n).events = s.events ∧ (s.updateBlank n).freeCount = s.freeCount ∧
    (s.updateBlank n).runRefused = s.runRefused := by
  unfold State.updateBlank
  split <;> simp

/-- What `State.updateLevels` leaves unchanged (R226). -/
@[simp] theorem State.updateLevels_frame (h v : Nat) :
    (s.updateLevels h v).fifo = s.fifo ∧ (s.updateLevels h v).fifoDir = s.fifoDir ∧
    (s.updateLevels h v).disp = s.disp ∧ (s.updateLevels h v).geom = s.geom ∧
    (s.updateLevels h v).pitch = s.pitch ∧ (s.updateLevels h v).de = s.de ∧
    (s.updateLevels h v).master = s.master ∧ (s.updateLevels h v).cursor = s.cursor ∧
    (s.updateLevels h v).zoom = s.zoom ∧ (s.updateLevels h v).addr = s.addr ∧
    (s.updateLevels h v).lad = s.lad ∧ (s.updateLevels h v).ra = s.ra ∧ (s.updateLevels h v).fig = s.fig ∧
    (s.updateLevels h v).drq = s.drq ∧ (s.updateLevels h v).mem = s.mem ∧ (s.updateLevels h v).cfg = s.cfg ∧
    (s.updateLevels h v).events = s.events ∧ (s.updateLevels h v).freeCount = s.freeCount ∧
    (s.updateLevels h v).runRefused = s.runRefused := by
  simp [State.updateLevels]

/-- What `State.enterPosition` leaves unchanged (R224). -/
@[simp] theorem State.enterPosition_frame :
    (s.enterPosition).fifo = s.fifo ∧ (s.enterPosition).fifoDir = s.fifoDir ∧ (s.enterPosition).disp = s.disp ∧
    (s.enterPosition).geom = s.geom ∧ (s.enterPosition).pitch = s.pitch ∧ (s.enterPosition).de = s.de ∧
    (s.enterPosition).master = s.master ∧ (s.enterPosition).cursor = s.cursor ∧
    (s.enterPosition).zoom = s.zoom ∧ (s.enterPosition).addr = s.addr ∧ (s.enterPosition).lad = s.lad ∧
    (s.enterPosition).ra = s.ra ∧ (s.enterPosition).fig = s.fig ∧ (s.enterPosition).drq = s.drq ∧
    (s.enterPosition).mem = s.mem ∧ (s.enterPosition).cfg = s.cfg ∧ (s.enterPosition).events = s.events ∧
    (s.enterPosition).freeCount = s.freeCount ∧ (s.enterPosition).runRefused = s.runRefused := by
  unfold State.enterPosition
  dsimp only
  split_ifs <;> simp

/-- What `State.tick` leaves unchanged (R224). -/
@[simp] theorem State.tick_frame :
    (s.tick).fifo = s.fifo ∧ (s.tick).fifoDir = s.fifoDir ∧ (s.tick).disp = s.disp ∧ (s.tick).geom = s.geom ∧
    (s.tick).pitch = s.pitch ∧ (s.tick).de = s.de ∧ (s.tick).master = s.master ∧ (s.tick).cursor = s.cursor ∧
    (s.tick).zoom = s.zoom ∧ (s.tick).addr = s.addr ∧ (s.tick).lad = s.lad ∧ (s.tick).ra = s.ra ∧
    (s.tick).fig = s.fig ∧ (s.tick).drq = s.drq ∧ (s.tick).mem = s.mem ∧ (s.tick).cfg = s.cfg ∧
    (s.tick).events = s.events ∧ (s.tick).freeCount = s.freeCount ∧ (s.tick).runRefused = s.runRefused := by
  unfold State.tick
  split <;> simp

/-- What `State.extVsync` leaves unchanged (R229). -/
@[simp] theorem State.extVsync_frame :
    (s.extVsync).fifo = s.fifo ∧ (s.extVsync).fifoDir = s.fifoDir ∧ (s.extVsync).sr = s.sr ∧
    (s.extVsync).disp = s.disp ∧ (s.extVsync).geom = s.geom ∧ (s.extVsync).pitch = s.pitch ∧
    (s.extVsync).de = s.de ∧ (s.extVsync).master = s.master ∧ (s.extVsync).cursor = s.cursor ∧
    (s.extVsync).zoom = s.zoom ∧ (s.extVsync).addr = s.addr ∧ (s.extVsync).lad = s.lad ∧
    (s.extVsync).ra = s.ra ∧ (s.extVsync).fig = s.fig ∧ (s.extVsync).drq = s.drq ∧ (s.extVsync).mem = s.mem ∧
    (s.extVsync).out = s.out ∧ (s.extVsync).cfg = s.cfg ∧ (s.extVsync).events = s.events ∧
    (s.extVsync).freeCount = s.freeCount ∧ (s.extVsync).runRefused = s.runRefused := by
  unfold State.extVsync
  split <;> simp

/-- What `State.renderLine` leaves unchanged (R205). -/
@[simp] theorem State.renderLine_frame (y : Nat) :
    (s.renderLine y).fifo = s.fifo ∧ (s.renderLine y).fifoDir = s.fifoDir ∧ (s.renderLine y).sr = s.sr ∧
    (s.renderLine y).disp = s.disp ∧ (s.renderLine y).geom = s.geom ∧ (s.renderLine y).pitch = s.pitch ∧
    (s.renderLine y).de = s.de ∧ (s.renderLine y).master = s.master ∧ (s.renderLine y).cursor = s.cursor ∧
    (s.renderLine y).zoom = s.zoom ∧ (s.renderLine y).addr = s.addr ∧ (s.renderLine y).lad = s.lad ∧
    (s.renderLine y).ra = s.ra ∧ (s.renderLine y).fig = s.fig ∧ (s.renderLine y).raster = s.raster ∧
    (s.renderLine y).drq = s.drq ∧ (s.renderLine y).mem = s.mem ∧ (s.renderLine y).cfg = s.cfg ∧
    (s.renderLine y).events = s.events ∧ (s.renderLine y).freeCount = s.freeCount ∧
    (s.renderLine y).runRefused = s.runRefused := by
  simp [State.renderLine]

/-- What `State.renderFrame` leaves unchanged (R205). -/
@[simp] theorem State.renderFrame_frame :
    (s.renderFrame).fifo = s.fifo ∧ (s.renderFrame).fifoDir = s.fifoDir ∧ (s.renderFrame).sr = s.sr ∧
    (s.renderFrame).disp = s.disp ∧ (s.renderFrame).geom = s.geom ∧ (s.renderFrame).pitch = s.pitch ∧
    (s.renderFrame).de = s.de ∧ (s.renderFrame).master = s.master ∧ (s.renderFrame).cursor = s.cursor ∧
    (s.renderFrame).zoom = s.zoom ∧ (s.renderFrame).addr = s.addr ∧ (s.renderFrame).lad = s.lad ∧
    (s.renderFrame).ra = s.ra ∧ (s.renderFrame).fig = s.fig ∧ (s.renderFrame).raster = s.raster ∧
    (s.renderFrame).drq = s.drq ∧ (s.renderFrame).mem = s.mem ∧ (s.renderFrame).cfg = s.cfg ∧
    (s.renderFrame).events = s.events ∧ (s.renderFrame).freeCount = s.freeCount ∧
    (s.renderFrame).runRefused = s.runRefused := by
  simp [State.renderFrame]

/-- What `State.applyReset` leaves unchanged (R110). -/
@[simp] theorem State.applyReset_frame :
    (s.applyReset).fifo = s.fifo ∧ (s.applyReset).fifoDir = s.fifoDir ∧ (s.applyReset).sr = s.sr ∧
    (s.applyReset).disp = s.disp ∧ (s.applyReset).geom = s.geom ∧ (s.applyReset).pitch = s.pitch ∧
    (s.applyReset).master = s.master ∧ (s.applyReset).cursor = s.cursor ∧ (s.applyReset).zoom = s.zoom ∧
    (s.applyReset).lad = s.lad ∧ (s.applyReset).fig = s.fig ∧ (s.applyReset).raster = s.raster ∧
    (s.applyReset).drq = s.drq ∧ (s.applyReset).mem = s.mem ∧ (s.applyReset).out = s.out ∧
    (s.applyReset).cfg = s.cfg ∧ (s.applyReset).events = s.events ∧ (s.applyReset).freeCount = s.freeCount ∧
    (s.applyReset).runRefused = s.runRefused := by
  simp [State.applyReset]

/-- What `State.logClamp` leaves unchanged (R113). -/
@[simp] theorem State.logClamp_frame :
    (s.logClamp).fifo = s.fifo ∧ (s.logClamp).fifoDir = s.fifoDir ∧ (s.logClamp).sr = s.sr ∧
    (s.logClamp).disp = s.disp ∧ (s.logClamp).geom = s.geom ∧ (s.logClamp).pitch = s.pitch ∧
    (s.logClamp).de = s.de ∧ (s.logClamp).master = s.master ∧ (s.logClamp).cursor = s.cursor ∧
    (s.logClamp).zoom = s.zoom ∧ (s.logClamp).addr = s.addr ∧ (s.logClamp).lad = s.lad ∧
    (s.logClamp).ra = s.ra ∧ (s.logClamp).fig = s.fig ∧ (s.logClamp).raster = s.raster ∧
    (s.logClamp).drq = s.drq ∧ (s.logClamp).mem = s.mem ∧ (s.logClamp).cfg = s.cfg ∧
    (s.logClamp).events = s.events ∧ (s.logClamp).freeCount = s.freeCount ∧
    (s.logClamp).runRefused = s.runRefused := by
  unfold State.logClamp
  split <;> simp

/-- What `State.applySync` leaves unchanged (R111). -/
@[simp] theorem State.applySync_frame (f : Bool) :
    (s.applySync f).fifo = s.fifo ∧ (s.applySync f).fifoDir = s.fifoDir ∧ (s.applySync f).sr = s.sr ∧
    (s.applySync f).disp = s.disp ∧ (s.applySync f).pitch = s.pitch ∧ (s.applySync f).master = s.master ∧
    (s.applySync f).cursor = s.cursor ∧ (s.applySync f).zoom = s.zoom ∧ (s.applySync f).addr = s.addr ∧
    (s.applySync f).lad = s.lad ∧ (s.applySync f).ra = s.ra ∧ (s.applySync f).fig = s.fig ∧
    (s.applySync f).drq = s.drq ∧ (s.applySync f).mem = s.mem ∧ (s.applySync f).cfg = s.cfg ∧
    (s.applySync f).events = s.events ∧ (s.applySync f).freeCount = s.freeCount ∧
    (s.applySync f).runRefused = s.runRefused := by
  simp [State.applySync]

/-- What `State.applyVsync` leaves unchanged (R114). -/
@[simp] theorem State.applyVsync_frame (f : Bool) :
    (s.applyVsync f).fifo = s.fifo ∧ (s.applyVsync f).fifoDir = s.fifoDir ∧ (s.applyVsync f).sr = s.sr ∧
    (s.applyVsync f).disp = s.disp ∧ (s.applyVsync f).geom = s.geom ∧ (s.applyVsync f).pitch = s.pitch ∧
    (s.applyVsync f).de = s.de ∧ (s.applyVsync f).cursor = s.cursor ∧ (s.applyVsync f).zoom = s.zoom ∧
    (s.applyVsync f).addr = s.addr ∧ (s.applyVsync f).lad = s.lad ∧ (s.applyVsync f).ra = s.ra ∧
    (s.applyVsync f).fig = s.fig ∧ (s.applyVsync f).drq = s.drq ∧ (s.applyVsync f).mem = s.mem ∧
    (s.applyVsync f).out = s.out ∧ (s.applyVsync f).cfg = s.cfg ∧ (s.applyVsync f).events = s.events ∧
    (s.applyVsync f).freeCount = s.freeCount ∧ (s.applyVsync f).runRefused = s.runRefused := by
  simp [State.applyVsync]

/-- What `State.applyCchar` leaves unchanged (R115). -/
@[simp] theorem State.applyCchar_frame :
    (s.applyCchar).fifo = s.fifo ∧ (s.applyCchar).fifoDir = s.fifoDir ∧ (s.applyCchar).sr = s.sr ∧
    (s.applyCchar).disp = s.disp ∧ (s.applyCchar).geom = s.geom ∧ (s.applyCchar).pitch = s.pitch ∧
    (s.applyCchar).de = s.de ∧ (s.applyCchar).master = s.master ∧ (s.applyCchar).zoom = s.zoom ∧
    (s.applyCchar).addr = s.addr ∧ (s.applyCchar).lad = s.lad ∧ (s.applyCchar).ra = s.ra ∧
    (s.applyCchar).fig = s.fig ∧ (s.applyCchar).raster = s.raster ∧ (s.applyCchar).drq = s.drq ∧
    (s.applyCchar).mem = s.mem ∧ (s.applyCchar).out = s.out ∧ (s.applyCchar).cfg = s.cfg ∧
    (s.applyCchar).events = s.events ∧ (s.applyCchar).freeCount = s.freeCount ∧
    (s.applyCchar).runRefused = s.runRefused := by
  simp [State.applyCchar]

/-- What `State.applyZoom` leaves unchanged (R118). -/
@[simp] theorem State.applyZoom_frame :
    (s.applyZoom).fifo = s.fifo ∧ (s.applyZoom).fifoDir = s.fifoDir ∧ (s.applyZoom).sr = s.sr ∧
    (s.applyZoom).disp = s.disp ∧ (s.applyZoom).geom = s.geom ∧ (s.applyZoom).pitch = s.pitch ∧
    (s.applyZoom).de = s.de ∧ (s.applyZoom).master = s.master ∧ (s.applyZoom).cursor = s.cursor ∧
    (s.applyZoom).addr = s.addr ∧ (s.applyZoom).lad = s.lad ∧ (s.applyZoom).ra = s.ra ∧
    (s.applyZoom).fig = s.fig ∧ (s.applyZoom).raster = s.raster ∧ (s.applyZoom).drq = s.drq ∧
    (s.applyZoom).mem = s.mem ∧ (s.applyZoom).out = s.out ∧ (s.applyZoom).cfg = s.cfg ∧
    (s.applyZoom).events = s.events ∧ (s.applyZoom).freeCount = s.freeCount ∧
    (s.applyZoom).runRefused = s.runRefused := by
  simp [State.applyZoom]

/-- What `State.applyPitch` leaves unchanged (R119). -/
@[simp] theorem State.applyPitch_frame :
    (s.applyPitch).fifo = s.fifo ∧ (s.applyPitch).fifoDir = s.fifoDir ∧ (s.applyPitch).sr = s.sr ∧
    (s.applyPitch).disp = s.disp ∧ (s.applyPitch).geom = s.geom ∧ (s.applyPitch).de = s.de ∧
    (s.applyPitch).master = s.master ∧ (s.applyPitch).cursor = s.cursor ∧ (s.applyPitch).zoom = s.zoom ∧
    (s.applyPitch).addr = s.addr ∧ (s.applyPitch).lad = s.lad ∧ (s.applyPitch).ra = s.ra ∧
    (s.applyPitch).fig = s.fig ∧ (s.applyPitch).raster = s.raster ∧ (s.applyPitch).drq = s.drq ∧
    (s.applyPitch).mem = s.mem ∧ (s.applyPitch).out = s.out ∧ (s.applyPitch).cfg = s.cfg ∧
    (s.applyPitch).events = s.events ∧ (s.applyPitch).freeCount = s.freeCount ∧
    (s.applyPitch).runRefused = s.runRefused := by
  simp [State.applyPitch]

/-- What `State.applyCurs` leaves unchanged (R130, R131). -/
@[simp] theorem State.applyCurs_frame :
    (s.applyCurs).fifo = s.fifo ∧ (s.applyCurs).fifoDir = s.fifoDir ∧ (s.applyCurs).sr = s.sr ∧
    (s.applyCurs).disp = s.disp ∧ (s.applyCurs).geom = s.geom ∧ (s.applyCurs).pitch = s.pitch ∧
    (s.applyCurs).de = s.de ∧ (s.applyCurs).master = s.master ∧ (s.applyCurs).cursor = s.cursor ∧
    (s.applyCurs).zoom = s.zoom ∧ (s.applyCurs).lad = s.lad ∧ (s.applyCurs).ra = s.ra ∧
    (s.applyCurs).fig = s.fig ∧ (s.applyCurs).raster = s.raster ∧ (s.applyCurs).drq = s.drq ∧
    (s.applyCurs).mem = s.mem ∧ (s.applyCurs).out = s.out ∧ (s.applyCurs).cfg = s.cfg ∧
    (s.applyCurs).events = s.events ∧ (s.applyCurs).freeCount = s.freeCount ∧
    (s.applyCurs).runRefused = s.runRefused := by
  simp [State.applyCurs]

/-- What `State.applyMask` leaves unchanged (R135). -/
@[simp] theorem State.applyMask_frame :
    (s.applyMask).fifo = s.fifo ∧ (s.applyMask).fifoDir = s.fifoDir ∧ (s.applyMask).sr = s.sr ∧
    (s.applyMask).disp = s.disp ∧ (s.applyMask).geom = s.geom ∧ (s.applyMask).pitch = s.pitch ∧
    (s.applyMask).de = s.de ∧ (s.applyMask).master = s.master ∧ (s.applyMask).cursor = s.cursor ∧
    (s.applyMask).zoom = s.zoom ∧ (s.applyMask).lad = s.lad ∧ (s.applyMask).ra = s.ra ∧
    (s.applyMask).fig = s.fig ∧ (s.applyMask).raster = s.raster ∧ (s.applyMask).drq = s.drq ∧
    (s.applyMask).mem = s.mem ∧ (s.applyMask).out = s.out ∧ (s.applyMask).cfg = s.cfg ∧
    (s.applyMask).events = s.events ∧ (s.applyMask).freeCount = s.freeCount ∧
    (s.applyMask).runRefused = s.runRefused := by
  simp [State.applyMask]

/-- What `State.applyPramByte` leaves unchanged (R133). -/
@[simp] theorem State.applyPramByte_frame (v : Byte) :
    (s.applyPramByte v).fifo = s.fifo ∧ (s.applyPramByte v).fifoDir = s.fifoDir ∧
    (s.applyPramByte v).sr = s.sr ∧ (s.applyPramByte v).geom = s.geom ∧ (s.applyPramByte v).pitch = s.pitch ∧
    (s.applyPramByte v).de = s.de ∧ (s.applyPramByte v).master = s.master ∧
    (s.applyPramByte v).cursor = s.cursor ∧ (s.applyPramByte v).zoom = s.zoom ∧
    (s.applyPramByte v).addr = s.addr ∧ (s.applyPramByte v).lad = s.lad ∧ (s.applyPramByte v).fig = s.fig ∧
    (s.applyPramByte v).raster = s.raster ∧ (s.applyPramByte v).drq = s.drq ∧ (s.applyPramByte v).mem = s.mem ∧
    (s.applyPramByte v).out = s.out ∧ (s.applyPramByte v).cfg = s.cfg ∧ (s.applyPramByte v).events = s.events ∧
    (s.applyPramByte v).freeCount = s.freeCount ∧ (s.applyPramByte v).runRefused = s.runRefused := by
  unfold State.applyPramByte
  split <;> simp

/-- What `State.applyFigsGroup` leaves unchanged (R136). -/
@[simp] theorem State.applyFigsGroup_frame :
    (s.applyFigsGroup).fifo = s.fifo ∧ (s.applyFigsGroup).fifoDir = s.fifoDir ∧ (s.applyFigsGroup).sr = s.sr ∧
    (s.applyFigsGroup).disp = s.disp ∧ (s.applyFigsGroup).geom = s.geom ∧ (s.applyFigsGroup).pitch = s.pitch ∧
    (s.applyFigsGroup).de = s.de ∧ (s.applyFigsGroup).master = s.master ∧
    (s.applyFigsGroup).cursor = s.cursor ∧ (s.applyFigsGroup).zoom = s.zoom ∧
    (s.applyFigsGroup).addr = s.addr ∧ (s.applyFigsGroup).lad = s.lad ∧ (s.applyFigsGroup).ra = s.ra ∧
    (s.applyFigsGroup).raster = s.raster ∧ (s.applyFigsGroup).drq = s.drq ∧ (s.applyFigsGroup).mem = s.mem ∧
    (s.applyFigsGroup).out = s.out ∧ (s.applyFigsGroup).cfg = s.cfg ∧ (s.applyFigsGroup).events = s.events ∧
    (s.applyFigsGroup).freeCount = s.freeCount ∧ (s.applyFigsGroup).runRefused = s.runRefused := by
  unfold State.applyFigsGroup
  dsimp only
  split_ifs <;> simp

/-- What `State.startWdat` leaves unchanged (R155). -/
@[simp] theorem State.startWdat_frame (t : XferType) (m : ModMode) :
    (s.startWdat t m).fifo = s.fifo ∧ (s.startWdat t m).fifoDir = s.fifoDir ∧ (s.startWdat t m).sr = s.sr ∧
    (s.startWdat t m).geom = s.geom ∧ (s.startWdat t m).pitch = s.pitch ∧ (s.startWdat t m).de = s.de ∧
    (s.startWdat t m).master = s.master ∧ (s.startWdat t m).cursor = s.cursor ∧
    (s.startWdat t m).zoom = s.zoom ∧ (s.startWdat t m).addr = s.addr ∧ (s.startWdat t m).lad = s.lad ∧
    (s.startWdat t m).ra = s.ra ∧ (s.startWdat t m).fig = s.fig ∧ (s.startWdat t m).raster = s.raster ∧
    (s.startWdat t m).drq = s.drq ∧ (s.startWdat t m).mem = s.mem ∧ (s.startWdat t m).cfg = s.cfg ∧
    (s.startWdat t m).events = s.events ∧ (s.startWdat t m).freeCount = s.freeCount ∧
    (s.startWdat t m).runRefused = s.runRefused := by
  unfold State.startWdat
  split <;> simp

/-- What `State.plotN` leaves unchanged (R155). -/
@[simp] theorem State.plotN_frame (x l : Word) (n : Nat) :
    (s.plotN x l n).fifo = s.fifo ∧ (s.plotN x l n).fifoDir = s.fifoDir ∧ (s.plotN x l n).sr = s.sr ∧
    (s.plotN x l n).disp = s.disp ∧ (s.plotN x l n).geom = s.geom ∧ (s.plotN x l n).pitch = s.pitch ∧
    (s.plotN x l n).de = s.de ∧ (s.plotN x l n).master = s.master ∧ (s.plotN x l n).cursor = s.cursor ∧
    (s.plotN x l n).zoom = s.zoom ∧ (s.plotN x l n).lad = s.lad ∧ (s.plotN x l n).ra = s.ra ∧
    (s.plotN x l n).fig = s.fig ∧ (s.plotN x l n).raster = s.raster ∧ (s.plotN x l n).drq = s.drq ∧
    (s.plotN x l n).out = s.out ∧ (s.plotN x l n).cfg = s.cfg ∧ (s.plotN x l n).events = s.events ∧
    (s.plotN x l n).freeCount = s.freeCount ∧ (s.plotN x l n).runRefused = s.runRefused := by
  unfold State.plotN
  refine ⟨iterate_keeps State.fifo _ ?_ _ _, iterate_keeps State.fifoDir _ ?_ _ _,
    iterate_keeps State.sr _ ?_ _ _, iterate_keeps State.disp _ ?_ _ _, iterate_keeps State.geom _ ?_ _ _,
    iterate_keeps State.pitch _ ?_ _ _, iterate_keeps State.de _ ?_ _ _,
    iterate_keeps State.master _ ?_ _ _, iterate_keeps State.cursor _ ?_ _ _,
    iterate_keeps State.zoom _ ?_ _ _, iterate_keeps State.lad _ ?_ _ _, iterate_keeps State.ra _ ?_ _ _,
    iterate_keeps State.fig _ ?_ _ _, iterate_keeps State.raster _ ?_ _ _, iterate_keeps State.drq _ ?_ _ _,
    iterate_keeps State.out _ ?_ _ _, iterate_keeps State.cfg _ ?_ _ _, iterate_keeps State.events _ ?_ _ _,
    iterate_keeps State.freeCount _ ?_ _ _, iterate_keeps State.runRefused _ ?_ _ _⟩ <;>
    simp

/-- What `State.applyWdat` leaves unchanged (R155). -/
@[simp] theorem State.applyWdat_frame :
    (s.applyWdat).fifo = s.fifo ∧ (s.applyWdat).fifoDir = s.fifoDir ∧ (s.applyWdat).sr = s.sr ∧
    (s.applyWdat).disp = s.disp ∧ (s.applyWdat).geom = s.geom ∧ (s.applyWdat).pitch = s.pitch ∧
    (s.applyWdat).de = s.de ∧ (s.applyWdat).master = s.master ∧ (s.applyWdat).cursor = s.cursor ∧
    (s.applyWdat).zoom = s.zoom ∧ (s.applyWdat).lad = s.lad ∧ (s.applyWdat).ra = s.ra ∧
    (s.applyWdat).raster = s.raster ∧ (s.applyWdat).drq = s.drq ∧ (s.applyWdat).out = s.out ∧
    (s.applyWdat).cfg = s.cfg ∧ (s.applyWdat).events = s.events ∧ (s.applyWdat).freeCount = s.freeCount ∧
    (s.applyWdat).runRefused = s.runRefused := by
  unfold State.applyWdat
  split <;> simp

/-- What `State.readOut` leaves unchanged (R158). -/
@[simp] theorem State.readOut_frame (t : XferType) :
    (s.readOut t).fifoDir = s.fifoDir ∧ (s.readOut t).disp = s.disp ∧ (s.readOut t).geom = s.geom ∧
    (s.readOut t).pitch = s.pitch ∧ (s.readOut t).de = s.de ∧ (s.readOut t).master = s.master ∧
    (s.readOut t).cursor = s.cursor ∧ (s.readOut t).zoom = s.zoom ∧ (s.readOut t).lad = s.lad ∧
    (s.readOut t).ra = s.ra ∧ (s.readOut t).fig = s.fig ∧ (s.readOut t).raster = s.raster ∧
    (s.readOut t).drq = s.drq ∧ (s.readOut t).mem = s.mem ∧ (s.readOut t).cfg = s.cfg ∧
    (s.readOut t).events = s.events ∧ (s.readOut t).freeCount = s.freeCount ∧
    (s.readOut t).runRefused = s.runRefused := by
  simp [State.readOut]

/-- What `State.readOutN` leaves unchanged (R158). -/
@[simp] theorem State.readOutN_frame (t : XferType) (n : Nat) :
    (s.readOutN t n).fifoDir = s.fifoDir ∧ (s.readOutN t n).disp = s.disp ∧ (s.readOutN t n).geom = s.geom ∧
    (s.readOutN t n).pitch = s.pitch ∧ (s.readOutN t n).de = s.de ∧ (s.readOutN t n).master = s.master ∧
    (s.readOutN t n).cursor = s.cursor ∧ (s.readOutN t n).zoom = s.zoom ∧ (s.readOutN t n).lad = s.lad ∧
    (s.readOutN t n).ra = s.ra ∧ (s.readOutN t n).fig = s.fig ∧ (s.readOutN t n).raster = s.raster ∧
    (s.readOutN t n).drq = s.drq ∧ (s.readOutN t n).mem = s.mem ∧ (s.readOutN t n).cfg = s.cfg ∧
    (s.readOutN t n).events = s.events ∧ (s.readOutN t n).freeCount = s.freeCount ∧
    (s.readOutN t n).runRefused = s.runRefused := by
  unfold State.readOutN
  refine ⟨iterate_keeps State.fifoDir _ ?_ _ _, iterate_keeps State.disp _ ?_ _ _,
    iterate_keeps State.geom _ ?_ _ _, iterate_keeps State.pitch _ ?_ _ _, iterate_keeps State.de _ ?_ _ _,
    iterate_keeps State.master _ ?_ _ _, iterate_keeps State.cursor _ ?_ _ _,
    iterate_keeps State.zoom _ ?_ _ _, iterate_keeps State.lad _ ?_ _ _, iterate_keeps State.ra _ ?_ _ _,
    iterate_keeps State.fig _ ?_ _ _, iterate_keeps State.raster _ ?_ _ _, iterate_keeps State.drq _ ?_ _ _,
    iterate_keeps State.mem _ ?_ _ _, iterate_keeps State.cfg _ ?_ _ _, iterate_keeps State.events _ ?_ _ _,
    iterate_keeps State.freeCount _ ?_ _ _, iterate_keeps State.runRefused _ ?_ _ _⟩ <;>
    simp

/-- What `State.turnForInvalid` leaves unchanged (R158, R252). -/
@[simp] theorem State.turnForInvalid_frame :
    (s.turnForInvalid).disp = s.disp ∧ (s.turnForInvalid).geom = s.geom ∧ (s.turnForInvalid).pitch = s.pitch ∧
    (s.turnForInvalid).de = s.de ∧ (s.turnForInvalid).master = s.master ∧
    (s.turnForInvalid).cursor = s.cursor ∧ (s.turnForInvalid).zoom = s.zoom ∧
    (s.turnForInvalid).addr = s.addr ∧ (s.turnForInvalid).lad = s.lad ∧ (s.turnForInvalid).ra = s.ra ∧
    (s.turnForInvalid).fig = s.fig ∧ (s.turnForInvalid).raster = s.raster ∧ (s.turnForInvalid).drq = s.drq ∧
    (s.turnForInvalid).mem = s.mem ∧ (s.turnForInvalid).out = s.out ∧ (s.turnForInvalid).cfg = s.cfg ∧
    (s.turnForInvalid).events = s.events ∧ (s.turnForInvalid).freeCount = s.freeCount ∧
    (s.turnForInvalid).runRefused = s.runRefused := by
  unfold State.turnForInvalid
  split <;> simp

/-- What `State.applyRdat` leaves unchanged (R158). -/
@[simp] theorem State.applyRdat_frame (t : XferType) (m : ModMode) :
    (s.applyRdat t m).geom = s.geom ∧ (s.applyRdat t m).pitch = s.pitch ∧ (s.applyRdat t m).de = s.de ∧
    (s.applyRdat t m).master = s.master ∧ (s.applyRdat t m).cursor = s.cursor ∧
    (s.applyRdat t m).zoom = s.zoom ∧ (s.applyRdat t m).lad = s.lad ∧ (s.applyRdat t m).ra = s.ra ∧
    (s.applyRdat t m).raster = s.raster ∧ (s.applyRdat t m).drq = s.drq ∧ (s.applyRdat t m).mem = s.mem ∧
    (s.applyRdat t m).cfg = s.cfg ∧ (s.applyRdat t m).events = s.events ∧
    (s.applyRdat t m).freeCount = s.freeCount ∧ (s.applyRdat t m).runRefused = s.runRefused := by
  unfold State.applyRdat
  dsimp only
  split_ifs <;> simp

/-- What `State.loadFigd` leaves unchanged (R160). -/
@[simp] theorem State.loadFigd_frame (o : FigdOutcome) :
    (s.loadFigd o).fifo = s.fifo ∧ (s.loadFigd o).fifoDir = s.fifoDir ∧ (s.loadFigd o).sr = s.sr ∧
    (s.loadFigd o).disp = s.disp ∧ (s.loadFigd o).geom = s.geom ∧ (s.loadFigd o).pitch = s.pitch ∧
    (s.loadFigd o).de = s.de ∧ (s.loadFigd o).master = s.master ∧ (s.loadFigd o).cursor = s.cursor ∧
    (s.loadFigd o).zoom = s.zoom ∧ (s.loadFigd o).lad = s.lad ∧ (s.loadFigd o).ra = s.ra ∧
    (s.loadFigd o).raster = s.raster ∧ (s.loadFigd o).drq = s.drq ∧ (s.loadFigd o).out = s.out ∧
    (s.loadFigd o).cfg = s.cfg ∧ (s.loadFigd o).events = s.events ∧ (s.loadFigd o).freeCount = s.freeCount ∧
    (s.loadFigd o).runRefused = s.runRefused := by
  simp [State.loadFigd]

/-- What `State.applyFigd` leaves unchanged (R160). -/
@[simp] theorem State.applyFigd_frame :
    (s.applyFigd).fifo = s.fifo ∧ (s.applyFigd).fifoDir = s.fifoDir ∧ (s.applyFigd).sr = s.sr ∧
    (s.applyFigd).disp = s.disp ∧ (s.applyFigd).geom = s.geom ∧ (s.applyFigd).pitch = s.pitch ∧
    (s.applyFigd).de = s.de ∧ (s.applyFigd).master = s.master ∧ (s.applyFigd).cursor = s.cursor ∧
    (s.applyFigd).zoom = s.zoom ∧ (s.applyFigd).lad = s.lad ∧ (s.applyFigd).ra = s.ra ∧
    (s.applyFigd).raster = s.raster ∧ (s.applyFigd).drq = s.drq ∧ (s.applyFigd).cfg = s.cfg ∧
    (s.applyFigd).events = s.events := by
  unfold State.applyFigd
  split <;> simp

/-- What `State.drawDot` leaves unchanged (R162). -/
@[simp] theorem State.drawDot_frame (on : Bool) (z : Nat) :
    (s.drawDot on z).fifo = s.fifo ∧ (s.drawDot on z).fifoDir = s.fifoDir ∧ (s.drawDot on z).sr = s.sr ∧
    (s.drawDot on z).disp = s.disp ∧ (s.drawDot on z).geom = s.geom ∧ (s.drawDot on z).pitch = s.pitch ∧
    (s.drawDot on z).de = s.de ∧ (s.drawDot on z).master = s.master ∧ (s.drawDot on z).cursor = s.cursor ∧
    (s.drawDot on z).zoom = s.zoom ∧ (s.drawDot on z).lad = s.lad ∧ (s.drawDot on z).ra = s.ra ∧
    (s.drawDot on z).fig = s.fig ∧ (s.drawDot on z).raster = s.raster ∧ (s.drawDot on z).drq = s.drq ∧
    (s.drawDot on z).out = s.out ∧ (s.drawDot on z).cfg = s.cfg ∧ (s.drawDot on z).events = s.events ∧
    (s.drawDot on z).freeCount = s.freeCount ∧ (s.drawDot on z).runRefused = s.runRefused := by
  unfold State.drawDot
  refine ⟨iterate_keeps State.fifo _ ?_ _ _, iterate_keeps State.fifoDir _ ?_ _ _,
    iterate_keeps State.sr _ ?_ _ _, iterate_keeps State.disp _ ?_ _ _, iterate_keeps State.geom _ ?_ _ _,
    iterate_keeps State.pitch _ ?_ _ _, iterate_keeps State.de _ ?_ _ _,
    iterate_keeps State.master _ ?_ _ _, iterate_keeps State.cursor _ ?_ _ _,
    iterate_keeps State.zoom _ ?_ _ _, iterate_keeps State.lad _ ?_ _ _, iterate_keeps State.ra _ ?_ _ _,
    iterate_keeps State.fig _ ?_ _ _, iterate_keeps State.raster _ ?_ _ _, iterate_keeps State.drq _ ?_ _ _,
    iterate_keeps State.out _ ?_ _ _, iterate_keeps State.cfg _ ?_ _ _, iterate_keeps State.events _ ?_ _ _,
    iterate_keeps State.freeCount _ ?_ _ _, iterate_keeps State.runRefused _ ?_ _ _⟩ <;>
    simp

/-- What `State.drawDots` leaves unchanged (R162). -/
@[simp] theorem State.drawDots_frame (p : Byte) (z : Nat) :
    (s.drawDots p z).fifo = s.fifo ∧ (s.drawDots p z).fifoDir = s.fifoDir ∧ (s.drawDots p z).sr = s.sr ∧
    (s.drawDots p z).disp = s.disp ∧ (s.drawDots p z).geom = s.geom ∧ (s.drawDots p z).pitch = s.pitch ∧
    (s.drawDots p z).de = s.de ∧ (s.drawDots p z).master = s.master ∧ (s.drawDots p z).cursor = s.cursor ∧
    (s.drawDots p z).zoom = s.zoom ∧ (s.drawDots p z).lad = s.lad ∧ (s.drawDots p z).ra = s.ra ∧
    (s.drawDots p z).fig = s.fig ∧ (s.drawDots p z).raster = s.raster ∧ (s.drawDots p z).drq = s.drq ∧
    (s.drawDots p z).out = s.out ∧ (s.drawDots p z).cfg = s.cfg ∧ (s.drawDots p z).events = s.events ∧
    (s.drawDots p z).freeCount = s.freeCount ∧ (s.drawDots p z).runRefused = s.runRefused := by
  unfold State.drawDots
  refine ⟨foldl_keeps State.fifo _ ?_ _ _, foldl_keeps State.fifoDir _ ?_ _ _, foldl_keeps State.sr _ ?_ _ _,
    foldl_keeps State.disp _ ?_ _ _, foldl_keeps State.geom _ ?_ _ _, foldl_keeps State.pitch _ ?_ _ _,
    foldl_keeps State.de _ ?_ _ _, foldl_keeps State.master _ ?_ _ _, foldl_keeps State.cursor _ ?_ _ _,
    foldl_keeps State.zoom _ ?_ _ _, foldl_keeps State.lad _ ?_ _ _, foldl_keeps State.ra _ ?_ _ _,
    foldl_keeps State.fig _ ?_ _ _, foldl_keeps State.raster _ ?_ _ _, foldl_keeps State.drq _ ?_ _ _,
    foldl_keeps State.out _ ?_ _ _, foldl_keeps State.cfg _ ?_ _ _, foldl_keeps State.events _ ?_ _ _,
    foldl_keeps State.freeCount _ ?_ _ _, foldl_keeps State.runRefused _ ?_ _ _⟩ <;>
    simp

/-- What `State.drawRow` leaves unchanged (R162). -/
@[simp] theorem State.drawRow_frame (p : Byte) (z : Nat) :
    (s.drawRow p z).fifo = s.fifo ∧ (s.drawRow p z).fifoDir = s.fifoDir ∧ (s.drawRow p z).sr = s.sr ∧
    (s.drawRow p z).disp = s.disp ∧ (s.drawRow p z).geom = s.geom ∧ (s.drawRow p z).pitch = s.pitch ∧
    (s.drawRow p z).de = s.de ∧ (s.drawRow p z).master = s.master ∧ (s.drawRow p z).cursor = s.cursor ∧
    (s.drawRow p z).zoom = s.zoom ∧ (s.drawRow p z).lad = s.lad ∧ (s.drawRow p z).ra = s.ra ∧
    (s.drawRow p z).fig = s.fig ∧ (s.drawRow p z).raster = s.raster ∧ (s.drawRow p z).drq = s.drq ∧
    (s.drawRow p z).out = s.out ∧ (s.drawRow p z).cfg = s.cfg ∧ (s.drawRow p z).events = s.events ∧
    (s.drawRow p z).freeCount = s.freeCount ∧ (s.drawRow p z).runRefused = s.runRefused := by
  simp [State.drawRow]

/-- What `State.drawRows` leaves unchanged (R162). -/
@[simp] theorem State.drawRows_frame (p : Byte) (z : Nat) :
    (s.drawRows p z).fifo = s.fifo ∧ (s.drawRows p z).fifoDir = s.fifoDir ∧ (s.drawRows p z).sr = s.sr ∧
    (s.drawRows p z).disp = s.disp ∧ (s.drawRows p z).geom = s.geom ∧ (s.drawRows p z).pitch = s.pitch ∧
    (s.drawRows p z).de = s.de ∧ (s.drawRows p z).master = s.master ∧ (s.drawRows p z).cursor = s.cursor ∧
    (s.drawRows p z).zoom = s.zoom ∧ (s.drawRows p z).lad = s.lad ∧ (s.drawRows p z).ra = s.ra ∧
    (s.drawRows p z).fig = s.fig ∧ (s.drawRows p z).raster = s.raster ∧ (s.drawRows p z).drq = s.drq ∧
    (s.drawRows p z).out = s.out ∧ (s.drawRows p z).cfg = s.cfg ∧ (s.drawRows p z).events = s.events ∧
    (s.drawRows p z).freeCount = s.freeCount ∧ (s.drawRows p z).runRefused = s.runRefused := by
  unfold State.drawRows
  refine ⟨iterate_keeps State.fifo _ ?_ _ _, iterate_keeps State.fifoDir _ ?_ _ _,
    iterate_keeps State.sr _ ?_ _ _, iterate_keeps State.disp _ ?_ _ _, iterate_keeps State.geom _ ?_ _ _,
    iterate_keeps State.pitch _ ?_ _ _, iterate_keeps State.de _ ?_ _ _,
    iterate_keeps State.master _ ?_ _ _, iterate_keeps State.cursor _ ?_ _ _,
    iterate_keeps State.zoom _ ?_ _ _, iterate_keeps State.lad _ ?_ _ _, iterate_keeps State.ra _ ?_ _ _,
    iterate_keeps State.fig _ ?_ _ _, iterate_keeps State.raster _ ?_ _ _, iterate_keeps State.drq _ ?_ _ _,
    iterate_keeps State.out _ ?_ _ _, iterate_keeps State.cfg _ ?_ _ _, iterate_keeps State.events _ ?_ _ _,
    iterate_keeps State.freeCount _ ?_ _ _, iterate_keeps State.runRefused _ ?_ _ _⟩ <;>
    simp

/-- What `State.applyGchrd` leaves unchanged (R162). -/
@[simp] theorem State.applyGchrd_frame :
    (s.applyGchrd).fifo = s.fifo ∧ (s.applyGchrd).fifoDir = s.fifoDir ∧ (s.applyGchrd).sr = s.sr ∧
    (s.applyGchrd).disp = s.disp ∧ (s.applyGchrd).geom = s.geom ∧ (s.applyGchrd).pitch = s.pitch ∧
    (s.applyGchrd).de = s.de ∧ (s.applyGchrd).master = s.master ∧ (s.applyGchrd).cursor = s.cursor ∧
    (s.applyGchrd).zoom = s.zoom ∧ (s.applyGchrd).lad = s.lad ∧ (s.applyGchrd).ra = s.ra ∧
    (s.applyGchrd).fig = s.fig ∧ (s.applyGchrd).raster = s.raster ∧ (s.applyGchrd).drq = s.drq ∧
    (s.applyGchrd).out = s.out ∧ (s.applyGchrd).cfg = s.cfg ∧ (s.applyGchrd).events = s.events ∧
    (s.applyGchrd).freeCount = s.freeCount ∧ (s.applyGchrd).runRefused = s.runRefused := by
  unfold State.applyGchrd
  refine ⟨foldl_keeps State.fifo _ ?_ _ _, foldl_keeps State.fifoDir _ ?_ _ _, foldl_keeps State.sr _ ?_ _ _,
    foldl_keeps State.disp _ ?_ _ _, foldl_keeps State.geom _ ?_ _ _, foldl_keeps State.pitch _ ?_ _ _,
    foldl_keeps State.de _ ?_ _ _, foldl_keeps State.master _ ?_ _ _, foldl_keeps State.cursor _ ?_ _ _,
    foldl_keeps State.zoom _ ?_ _ _, foldl_keeps State.lad _ ?_ _ _, foldl_keeps State.ra _ ?_ _ _,
    foldl_keeps State.fig _ ?_ _ _, foldl_keeps State.raster _ ?_ _ _, foldl_keeps State.drq _ ?_ _ _,
    foldl_keeps State.out _ ?_ _ _, foldl_keeps State.cfg _ ?_ _ _, foldl_keeps State.events _ ?_ _ _,
    foldl_keeps State.freeCount _ ?_ _ _, foldl_keeps State.runRefused _ ?_ _ _⟩ <;>
    simp

/-- What `State.raiseDrq` leaves unchanged (R165). -/
@[simp] theorem State.raiseDrq_frame :
    (s.raiseDrq).fifo = s.fifo ∧ (s.raiseDrq).fifoDir = s.fifoDir ∧ (s.raiseDrq).sr = s.sr ∧
    (s.raiseDrq).disp = s.disp ∧ (s.raiseDrq).geom = s.geom ∧ (s.raiseDrq).pitch = s.pitch ∧
    (s.raiseDrq).de = s.de ∧ (s.raiseDrq).master = s.master ∧ (s.raiseDrq).cursor = s.cursor ∧
    (s.raiseDrq).zoom = s.zoom ∧ (s.raiseDrq).addr = s.addr ∧ (s.raiseDrq).lad = s.lad ∧
    (s.raiseDrq).ra = s.ra ∧ (s.raiseDrq).fig = s.fig ∧ (s.raiseDrq).raster = s.raster ∧
    (s.raiseDrq).mem = s.mem ∧ (s.raiseDrq).cfg = s.cfg ∧ (s.raiseDrq).events = s.events ∧
    (s.raiseDrq).freeCount = s.freeCount ∧ (s.raiseDrq).runRefused = s.runRefused := by
  unfold State.raiseDrq
  split <;> simp

/-- What `State.applyDma` leaves unchanged (R165). -/
@[simp] theorem State.applyDma_frame (t : XferType) (m : ModMode) :
    (s.applyDma t m).fifo = s.fifo ∧ (s.applyDma t m).fifoDir = s.fifoDir ∧ (s.applyDma t m).geom = s.geom ∧
    (s.applyDma t m).pitch = s.pitch ∧ (s.applyDma t m).de = s.de ∧ (s.applyDma t m).master = s.master ∧
    (s.applyDma t m).cursor = s.cursor ∧ (s.applyDma t m).zoom = s.zoom ∧ (s.applyDma t m).addr = s.addr ∧
    (s.applyDma t m).lad = s.lad ∧ (s.applyDma t m).ra = s.ra ∧ (s.applyDma t m).fig = s.fig ∧
    (s.applyDma t m).raster = s.raster ∧ (s.applyDma t m).mem = s.mem ∧ (s.applyDma t m).cfg = s.cfg ∧
    (s.applyDma t m).events = s.events ∧ (s.applyDma t m).freeCount = s.freeCount ∧
    (s.applyDma t m).runRefused = s.runRefused := by
  simp [State.applyDma]

/-- What `State.dmaEnd` leaves unchanged (R167). -/
@[simp] theorem State.dmaEnd_frame :
    (s.dmaEnd).fifo = s.fifo ∧ (s.dmaEnd).fifoDir = s.fifoDir ∧ (s.dmaEnd).disp = s.disp ∧
    (s.dmaEnd).geom = s.geom ∧ (s.dmaEnd).pitch = s.pitch ∧ (s.dmaEnd).de = s.de ∧
    (s.dmaEnd).master = s.master ∧ (s.dmaEnd).cursor = s.cursor ∧ (s.dmaEnd).zoom = s.zoom ∧
    (s.dmaEnd).addr = s.addr ∧ (s.dmaEnd).lad = s.lad ∧ (s.dmaEnd).ra = s.ra ∧ (s.dmaEnd).fig = s.fig ∧
    (s.dmaEnd).raster = s.raster ∧ (s.dmaEnd).mem = s.mem ∧ (s.dmaEnd).cfg = s.cfg ∧
    (s.dmaEnd).events = s.events ∧ (s.dmaEnd).freeCount = s.freeCount ∧ (s.dmaEnd).runRefused = s.runRefused := by
  unfold State.dmaEnd
  dsimp only
  split_ifs <;> simp

/-- What `State.applyCurd` leaves unchanged (R180). -/
@[simp] theorem State.applyCurd_frame :
    (s.applyCurd).disp = s.disp ∧ (s.applyCurd).geom = s.geom ∧ (s.applyCurd).pitch = s.pitch ∧
    (s.applyCurd).de = s.de ∧ (s.applyCurd).master = s.master ∧ (s.applyCurd).cursor = s.cursor ∧
    (s.applyCurd).zoom = s.zoom ∧ (s.applyCurd).addr = s.addr ∧ (s.applyCurd).lad = s.lad ∧
    (s.applyCurd).ra = s.ra ∧ (s.applyCurd).fig = s.fig ∧ (s.applyCurd).raster = s.raster ∧
    (s.applyCurd).drq = s.drq ∧ (s.applyCurd).mem = s.mem ∧ (s.applyCurd).cfg = s.cfg ∧
    (s.applyCurd).events = s.events ∧ (s.applyCurd).freeCount = s.freeCount ∧
    (s.applyCurd).runRefused = s.runRefused := by
  simp [State.applyCurd]

/-- What `State.applyLprd` leaves unchanged (R182). -/
@[simp] theorem State.applyLprd_frame :
    (s.applyLprd).disp = s.disp ∧ (s.applyLprd).geom = s.geom ∧ (s.applyLprd).pitch = s.pitch ∧
    (s.applyLprd).de = s.de ∧ (s.applyLprd).master = s.master ∧ (s.applyLprd).cursor = s.cursor ∧
    (s.applyLprd).zoom = s.zoom ∧ (s.applyLprd).addr = s.addr ∧ (s.applyLprd).lad = s.lad ∧
    (s.applyLprd).ra = s.ra ∧ (s.applyLprd).fig = s.fig ∧ (s.applyLprd).raster = s.raster ∧
    (s.applyLprd).drq = s.drq ∧ (s.applyLprd).mem = s.mem ∧ (s.applyLprd).cfg = s.cfg ∧
    (s.applyLprd).events = s.events ∧ (s.applyLprd).freeCount = s.freeCount ∧
    (s.applyLprd).runRefused = s.runRefused := by
  simp [State.applyLprd]

/-- What `State.lightPenDetect` leaves unchanged (R183). -/
@[simp] theorem State.lightPenDetect_frame (a : VAddr) :
    (s.lightPenDetect a).fifo = s.fifo ∧ (s.lightPenDetect a).fifoDir = s.fifoDir ∧
    (s.lightPenDetect a).disp = s.disp ∧ (s.lightPenDetect a).geom = s.geom ∧
    (s.lightPenDetect a).pitch = s.pitch ∧ (s.lightPenDetect a).de = s.de ∧
    (s.lightPenDetect a).master = s.master ∧ (s.lightPenDetect a).cursor = s.cursor ∧
    (s.lightPenDetect a).zoom = s.zoom ∧ (s.lightPenDetect a).addr = s.addr ∧ (s.lightPenDetect a).ra = s.ra ∧
    (s.lightPenDetect a).fig = s.fig ∧ (s.lightPenDetect a).raster = s.raster ∧
    (s.lightPenDetect a).drq = s.drq ∧ (s.lightPenDetect a).mem = s.mem ∧ (s.lightPenDetect a).out = s.out ∧
    (s.lightPenDetect a).cfg = s.cfg ∧ (s.lightPenDetect a).events = s.events ∧
    (s.lightPenDetect a).freeCount = s.freeCount ∧ (s.lightPenDetect a).runRefused = s.runRefused := by
  simp [State.lightPenDetect]

/-- What `State.logUnderrun` leaves unchanged (R91). -/
@[simp] theorem State.logUnderrun_frame :
    (s.logUnderrun).fifo = s.fifo ∧ (s.logUnderrun).fifoDir = s.fifoDir ∧ (s.logUnderrun).sr = s.sr ∧
    (s.logUnderrun).disp = s.disp ∧ (s.logUnderrun).geom = s.geom ∧ (s.logUnderrun).pitch = s.pitch ∧
    (s.logUnderrun).de = s.de ∧ (s.logUnderrun).master = s.master ∧ (s.logUnderrun).cursor = s.cursor ∧
    (s.logUnderrun).zoom = s.zoom ∧ (s.logUnderrun).addr = s.addr ∧ (s.logUnderrun).lad = s.lad ∧
    (s.logUnderrun).ra = s.ra ∧ (s.logUnderrun).fig = s.fig ∧ (s.logUnderrun).raster = s.raster ∧
    (s.logUnderrun).drq = s.drq ∧ (s.logUnderrun).mem = s.mem ∧ (s.logUnderrun).cfg = s.cfg ∧
    (s.logUnderrun).events = s.events ∧ (s.logUnderrun).freeCount = s.freeCount ∧
    (s.logUnderrun).runRefused = s.runRefused := by
  unfold State.logUnderrun
  split <;> simp

/-- What `State.openBusRead` leaves unchanged (R88). -/
@[simp] theorem State.openBusRead_frame :
    (s.openBusRead).fifo = s.fifo ∧ (s.openBusRead).fifoDir = s.fifoDir ∧ (s.openBusRead).sr = s.sr ∧
    (s.openBusRead).disp = s.disp ∧ (s.openBusRead).geom = s.geom ∧ (s.openBusRead).pitch = s.pitch ∧
    (s.openBusRead).de = s.de ∧ (s.openBusRead).master = s.master ∧ (s.openBusRead).cursor = s.cursor ∧
    (s.openBusRead).zoom = s.zoom ∧ (s.openBusRead).addr = s.addr ∧ (s.openBusRead).lad = s.lad ∧
    (s.openBusRead).ra = s.ra ∧ (s.openBusRead).fig = s.fig ∧ (s.openBusRead).raster = s.raster ∧
    (s.openBusRead).drq = s.drq ∧ (s.openBusRead).mem = s.mem ∧ (s.openBusRead).cfg = s.cfg ∧
    (s.openBusRead).events = s.events ∧ (s.openBusRead).runRefused = s.runRefused := by
  unfold State.openBusRead
  split <;> simp

/-- What `State.dataRead` leaves unchanged (R88). -/
@[simp] theorem State.dataRead_frame :
    (s.dataRead).fifoDir = s.fifoDir ∧ (s.dataRead).disp = s.disp ∧ (s.dataRead).geom = s.geom ∧
    (s.dataRead).pitch = s.pitch ∧ (s.dataRead).de = s.de ∧ (s.dataRead).master = s.master ∧
    (s.dataRead).cursor = s.cursor ∧ (s.dataRead).zoom = s.zoom ∧ (s.dataRead).addr = s.addr ∧
    (s.dataRead).lad = s.lad ∧ (s.dataRead).ra = s.ra ∧ (s.dataRead).fig = s.fig ∧
    (s.dataRead).raster = s.raster ∧ (s.dataRead).drq = s.drq ∧ (s.dataRead).mem = s.mem ∧
    (s.dataRead).cfg = s.cfg ∧ (s.dataRead).events = s.events ∧ (s.dataRead).runRefused = s.runRefused := by
  unfold State.dataRead State.dequeue
  cases h : s.fifoDir <;> cases h2 : s.fifo <;> simp [h]

end Sys2Proof.Machine
end

