-- ==== Sys2Proof/Laws/Fifo.lean ====
section
/-! SUPPORT. The FIFO operations: what each can do, said once (R80 to R84). -/

namespace Sys2Proof.Machine

/-! ## Enqueue (R80) -/

theorem State.enqueue_full {s : State} (h : s.fifo.length = fifoDepth) (b : Byte) (c : Bool) :
    s.enqueue b c = s.raiseLog .fifoOverflow b := by
  simp [State.enqueue, h]

theorem State.enqueue_notFull {s : State} (h : s.fifo.length ≠ fifoDepth) (b : Byte) (c : Bool) :
    s.enqueue b c =
      { s with
        fifo := s.fifo ++ [⟨b, c⟩]
        sr   := statusAfterEnqueue s.sr (s.fifo.length + 1) s.fifoDir } := by
  simp [State.enqueue, h]

/-- Everything an enqueue can do: a dropped byte and a log entry, or one more entry and the status bits. -/
theorem State.enqueue_cases (s : State) (b : Byte) (c : Bool) :
    (s.fifo.length = fifoDepth ∧ s.enqueue b c = s.raiseLog .fifoOverflow b)
      ∨ (s.fifo.length ≠ fifoDepth ∧
          s.enqueue b c =
            { s with
              fifo := s.fifo ++ [⟨b, c⟩]
              sr   := statusAfterEnqueue s.sr (s.fifo.length + 1) s.fifoDir }) := by
  by_cases h : s.fifo.length = fifoDepth
  · exact .inl ⟨h, State.enqueue_full h b c⟩
  · exact .inr ⟨h, State.enqueue_notFull h b c⟩

/-- An enqueue moves no status bit but FE, FF and DR. -/
theorem State.status_enqueue_other (s : State) (b : Byte) (c : Bool) (x : StatusBit)
    (h : x ≠ .fe) (h' : x ≠ .ff) (h'' : x ≠ .dr) : (s.enqueue b c).status x = s.status x := by
  rcases s.enqueue_cases b c with ⟨-, e⟩ | ⟨-, e⟩ <;> rw [e]
  · rfl
  · cases x <;> simp_all [State.status, statusGet_afterEnqueue]

/-- Enqueued result bytes move no status bit but FE, FF and DR. -/
theorem State.status_enqueueResults_other (s : State) (bs : List Byte) (x : StatusBit)
    (h : x ≠ .fe) (h' : x ≠ .ff) (h'' : x ≠ .dr) : (s.enqueueResults bs).status x = s.status x := by
  unfold State.enqueueResults
  exact foldl_keeps (fun s => State.status s x) _ (fun s b => s.status_enqueue_other b false x h h' h'') bs s

/-- Enqueues change no line event, pixel or read byte. -/
theorem State.enqueue_outputs (s : State) (b : Byte) (c : Bool) :
    (s.enqueue b c).out.lines = s.out.lines ∧ (s.enqueue b c).out.pixels = s.out.pixels
      ∧ (s.enqueue b c).out.reads = s.out.reads := by
  rcases s.enqueue_cases b c with ⟨-, e⟩ | ⟨-, e⟩ <;> simp [e]

theorem State.enqueueResults_outputs (s : State) (bs : List Byte) :
    (s.enqueueResults bs).out.lines = s.out.lines ∧ (s.enqueueResults bs).out.pixels = s.out.pixels
      ∧ (s.enqueueResults bs).out.reads = s.out.reads := by
  unfold State.enqueueResults
  exact ⟨foldl_keeps (fun s => s.out.lines) _ (fun s b => (s.enqueue_outputs b false).1) bs s,
    foldl_keeps (fun s => s.out.pixels) _ (fun s b => (s.enqueue_outputs b false).2.1) bs s,
    foldl_keeps (fun s => s.out.reads) _ (fun s b => (s.enqueue_outputs b false).2.2) bs s⟩

@[simp] theorem State.enqueueResults_nil (s : State) : s.enqueueResults [] = s := rfl

@[simp] theorem State.enqueueResults_cons (s : State) (b : Byte) (bs : List Byte) :
    s.enqueueResults (b :: bs) = (s.enqueue b false).enqueueResults bs := rfl

theorem State.enqueueResults_append (s : State) (bs cs : List Byte) :
    s.enqueueResults (bs ++ cs) = (s.enqueueResults bs).enqueueResults cs := by
  simp [State.enqueueResults]

/-! ## Dequeue (R81) -/

theorem State.dequeue_nil {s : State} (h : s.fifo = []) : s.dequeue = none := by
  simp [State.dequeue, h]

theorem State.dequeue_cons {s : State} {e : FifoEntry} {q : List FifoEntry} (h : s.fifo = e :: q) :
    s.dequeue = some (e, { s with fifo := q, sr := statusAfterDequeue s.sr q.length }) := by
  simp [State.dequeue, h]

/-- Everything a dequeue that returns an entry can do. -/
theorem State.dequeue_some {s t : State} {e : FifoEntry} (h : s.dequeue = some (e, t)) :
    ∃ q, s.fifo = e :: q ∧ t = { s with fifo := q, sr := statusAfterDequeue s.sr q.length } := by
  unfold State.dequeue at h
  split at h
  · cases h
  · rename_i e' q hq
    simp only [Option.some.injEq, Prod.mk.injEq] at h
    exact ⟨q, by rw [hq, h.1], h.2.symm⟩

/-- A dequeue moves no status bit but FE, FF and DR. -/
theorem status_afterDequeue_other (sr : Byte) (n : Nat) (x : StatusBit)
    (h : x ≠ .fe) (h' : x ≠ .ff) (h'' : x ≠ .dr) : statusGet (statusAfterDequeue sr n) x = statusGet sr x := by
  rw [statusGet_afterDequeue]
  revert h h' h''
  cases x <;> simp

/-! ## Direction (R82, R83) -/

theorem State.setDirection_same {s : State} {d : FifoDir} (h : s.fifoDir = d) : s.setDirection d = s := by
  simp [State.setDirection, h]

theorem State.setDirection_switch {s : State} {d : FifoDir} (h : s.fifoDir ≠ d) :
    s.setDirection d = { s with fifo := [], sr := statusCleared s.sr, fifoDir := d } := by
  have : d ≠ s.fifoDir := fun e => h e.symm
  simp [State.setDirection, this, State.fifoClear]

@[simp] theorem State.setDirection_fifoDir (s : State) (d : FifoDir) : (s.setDirection d).fifoDir = d := by
  by_cases h : s.fifoDir = d
  · rw [State.setDirection_same h, h]
  · rw [State.setDirection_switch h]

/-- A direction switch moves no status bit but FE, FF and DR. -/
theorem State.status_setDirection_other (s : State) (d : FifoDir) (x : StatusBit)
    (h : x ≠ .fe) (h' : x ≠ .ff) (h'' : x ≠ .dr) : (s.setDirection d).status x = s.status x := by
  by_cases hd : s.fifoDir = d
  · rw [State.setDirection_same hd]
  · rw [State.setDirection_switch hd]
    cases x <;> simp_all [State.status, statusGet_cleared]

/-- Putting one entry into an empty WRITE queue and taking it out leaves the status bits of a cleared queue. -/
theorem status_throughQueue (sr : Byte) :
    statusAfterDequeue (statusAfterEnqueue sr 1 .write) 0 = statusCleared sr := by
  apply status_ext
  intro x
  rw [statusGet_afterDequeue, statusGet_cleared]
  cases x <;> simp [statusGet_afterEnqueue]

theorem status_cleared_cleared (sr : Byte) : statusCleared (statusCleared sr) = statusCleared sr := by
  apply status_ext
  intro x
  cases x <;> simp [statusGet_cleared]

end Sys2Proof.Machine
end

