-- ==== Sys2Proof/Laws/Controller.lean ====
section
/-! SUPPORT. Port writes: every meaning answers a state, the drain of one byte, and what a property must satisfy
for every event to keep it. -/

namespace Sys2Proof.Machine

@[simp] theorem andThen_next (s : State) (f : State → Result State) : andThen (.next s) f = f s := rfl

/-- Every command answers a next state (R255). -/
theorem exec_total (i : Instr) (s : State) : ∃ t, exec i s = .next t := by
  cases i <;>
    simp only [exec, execReset, execSync, execVsync, execCchar, execStart, execBctrl, execZoom, execPitch, execCurs,
      execPram, execMask, execFigs, execWdat, execRdat, execFigd, execGchrd, execDmar, execDmaw, execCurd, execLprd,
      fixedArity, immediate] <;>
    first | exact ⟨_, rfl⟩ | (split_ifs <;> exact ⟨_, rfl⟩)

/-- Every dequeued entry is dispatched to a next state (R255). -/
theorem dispatchEntry_total (e : FifoEntry) (s : State) : ∃ t, dispatchEntry e s = .next t := by
  unfold dispatchEntry dispatchCommand dispatchParam
  split
  · dsimp only
    split
    · exact exec_total _ _
    · exact ⟨_, rfl⟩
  · split
    · exact ⟨_, rfl⟩
    · split
      · exact exec_total _ _
      · exact ⟨_, rfl⟩
      · exact ⟨_, rfl⟩

/-- A drain answers a next state (R255). -/
theorem drain_total (n : Nat) (s : State) : ∃ t, drain n s = .next t := by
  induction n generalizing s with
  | zero => exact ⟨s, rfl⟩
  | succ n ih =>
    unfold drain
    split
    · exact ⟨s, rfl⟩
    · split
      · exact ⟨s, rfl⟩
      · rename_i e s1 _
        obtain ⟨t, ht⟩ := dispatchEntry_total e s1
        rw [ht]
        exact ih t

/-- What every dispatched entry and every dequeue keeps, a drain keeps. -/
theorem drain_keeps {P : State → Prop}
    (hq : ∀ s e q, s.fifo = e :: q → P s → P { s with fifo := q, sr := statusAfterDequeue s.sr q.length })
    (hd : ∀ e s t, P s → dispatchEntry e s = .next t → P t) :
    ∀ n s t, P s → drain n s = .next t → P t := by
  intro n
  induction n with
  | zero =>
    intro s t hs h
    cases h
    exact hs
  | succ n ih =>
    intro s t hs h
    unfold drain at h
    split at h
    · cases h
      exact hs
    · split at h
      · cases h
        exact hs
      · rename_i e s1 hs1
        obtain ⟨q, hf, rfl⟩ := State.dequeue_some hs1
        obtain ⟨u, hu⟩ := dispatchEntry_total e { s with fifo := q, sr := statusAfterDequeue s.sr q.length }
        rw [hu] at h
        exact ih u t (hd e _ u (hq s e q hf hs) hu) h

/-- What the FIFO operations and every dispatched entry keep, a port write of a byte keeps. -/
theorem acceptByte_keeps {P : State → Prop}
    (hc : ∀ s d, P s → P (s.setDirection d))
    (he : ∀ s b c, P s → P (s.enqueue b c))
    (hq : ∀ s e q, s.fifo = e :: q → P s → P { s with fifo := q, sr := statusAfterDequeue s.sr q.length })
    (hd : ∀ e s t, P s → dispatchEntry e s = .next t → P t)
    {b : Byte} {c : Bool} {s t : State} (hs : P s) (h : acceptByte b c s = .next t) : P t :=
  drain_keeps hq hd _ _ _ (he _ b c (hc s .write hs)) h

/-- A port write into an empty queue dispatches exactly its own byte (R85, R86). -/
theorem acceptByte_eq {s : State} (h : s.WriteReady) (b : Byte) (c : Bool) :
    acceptByte b c s =
      dispatchEntry ⟨b, c⟩ { s with fifo := [], fifoDir := .write, sr := statusCleared s.sr } := by
  have one : ∀ u : State, u.fifo = [] → u.fifoDir = .write →
      drain (u.enqueue b c).fifo.length (u.enqueue b c) =
        dispatchEntry ⟨b, c⟩ { u with sr := statusCleared u.sr } := by
    intro u hf hd
    have hn : u.fifo.length ≠ fifoDepth := by rw [hf]; decide
    rw [State.enqueue_notFull hn, hf, hd]
    simp only [List.nil_append, List.length_cons, List.length_nil, Nat.zero_add]
    rw [drain]
    rw [State.dequeue_cons (e := ⟨b, c⟩) (q := []) rfl]
    simp only [List.length_nil, status_throughQueue]
    have e : ({ u with fifo := [], sr := statusCleared u.sr } : State) = { u with sr := statusCleared u.sr } := by
      rw [← hf]
    rw [← hd, e]
    obtain ⟨t, ht⟩ := dispatchEntry_total ⟨b, c⟩ { u with sr := statusCleared u.sr }
    rw [ht]
    rfl
  unfold acceptByte
  by_cases hd : s.fifoDir = .write
  · rw [State.setDirection_same hd]
    have hf := h hd
    rw [one s hf hd, ← hd, ← hf]
  · rw [State.setDirection_switch hd]
    rw [one _ rfl rfl]
    simp only [status_cleared_cleared]

/-- Every event answers a next state (R255). -/
theorem handleEvent_total (e : Event) (s : State) : ∃ t, handleEvent e s = .next t := by
  have accept : ∀ b c, ∃ t, acceptByte b c s = .next t := fun b c => drain_total _ _
  cases e with
  | portWrite offset b =>
    show ∃ t, portWrite offset b s = .next t
    unfold portWrite
    split
    · exact accept b false
    · exact accept b true
    · exact ⟨_, rfl⟩
  | _ => exact ⟨_, rfl⟩

end Sys2Proof.Machine
end

