-- ==== Sys2Proof/Laws/Memory.lean ====
section
/-! SUPPORT. Display memory: a read after a write, and the canonical form every write keeps. -/

namespace Sys2Proof.Machine

/-! ## Bytes -/

theorem Memory.readByte_insertByte (m : Memory) (a x : Nat) (b : Byte) :
    Memory.readByte (Memory.insertByte m a b) x = if x = a then b else Memory.readByte m x := by
  induction m with
  | nil => simp [Memory.insertByte, Memory.readByte]
  | cons c m ih =>
    unfold Memory.insertByte
    split
    · simp [Memory.readByte]
    · split
      · rename_i h
        by_cases hx : x = a
        · simp [Memory.readByte, hx]
        · simp [Memory.readByte, hx, h ▸ hx]
      · rename_i h
        by_cases hx : x = c.1
        · have : x ≠ a := fun e => h (e ▸ hx)
          simp [Memory.readByte, hx]
          intro e
          exact absurd (hx.trans e) this
        · simp [Memory.readByte, hx, ih]

theorem Memory.readByte_filter (m : Memory) (a x : Nat) :
    Memory.readByte (m.filter (fun c => c.1 ≠ a)) x = if x = a then unlistedByte a else Memory.readByte m x := by
  induction m with
  | nil => by_cases hx : x = a <;> simp [Memory.readByte, hx]
  | cons c m ih =>
    by_cases hc : c.1 = a
    · simp only [ne_eq, hc, not_true_eq_false, decide_false, Bool.false_eq_true, not_false_eq_true,
        List.filter_cons_of_neg, ih]
      by_cases hx : x = a
      · simp [hx]
      · simp [Memory.readByte, hx, hc]
    · have : decide (c.1 ≠ a) = true := by simp [hc]
      rw [List.filter_cons_of_pos (by simpa using this)]
      by_cases hx : x = c.1
      · have : x ≠ a := fun e => hc (hx ▸ e)
        simp [Memory.readByte, hx, hc]
      · rw [Memory.readByte, if_neg hx, ih, Memory.readByte, if_neg hx]

/-- A byte read after a byte written: the new byte at its address, the old byte at every other. -/
theorem Memory.readByte_writeByte (m : Memory) (a x : Nat) (b : Byte) :
    Memory.readByte (Memory.writeByte m a b) x = if x = a then b else Memory.readByte m x := by
  unfold Memory.writeByte
  split
  · rename_i h
    rw [Memory.readByte_filter, h]
  · exact Memory.readByte_insertByte m a x b

/-! ## Words -/

/-- A word read after a word written. -/
theorem Memory.readWord_writeWord (m : Memory) (a x : Nat) (w : Word) :
    Memory.readWord (Memory.writeWord m a w) x = if x = a then w else Memory.readWord m x := by
  unfold Memory.readWord Memory.writeWord
  simp only [Memory.readByte_writeByte]
  by_cases hx : x = a
  · have h1 : ¬ 2 * a = 2 * a + 1 := by omega
    simp [hx]
  · have h1 : ¬ 2 * x = 2 * a := by omega
    have h2 : ¬ 2 * x = 2 * a + 1 := by omega
    have h3 : ¬ 2 * x + 1 = 2 * a := by omega
    simp [hx, h2, h3]

/-- Every byte outside a written word reads as before. -/
theorem Memory.readByte_writeWord_of_ne (m : Memory) (a x : Nat) (w : Word) (h : x / 2 ≠ a) :
    Memory.readByte (Memory.writeWord m a w) x = Memory.readByte m x := by
  have h1 : x ≠ 2 * a := by omega
  have h2 : x ≠ 2 * a + 1 := by omega
  simp [Memory.writeWord, Memory.readByte_writeByte, h1, h2]

@[simp] theorem State.vramIndex_memWrite (s : State) (a x : VAddr) (w : Word) :
    (s.memWrite a w).vramIndex x = s.vramIndex x := rfl

/-- `MemRead` after `MemWrite` (R44, R45). -/
theorem State.memRead_memWrite (s : State) (a x : VAddr) (w : Word) :
    (s.memWrite a w).memRead x = if s.vramIndex x = s.vramIndex a then w else s.memRead x := by
  simp only [State.memRead, State.vramIndex_memWrite, State.memWrite_mem]
  exact Memory.readWord_writeWord _ _ _ _

theorem State.vramIndex_lt (s : State) (a : VAddr) : s.vramIndex a < s.cfg.vramWords :=
  Nat.mod_lt _ (Nat.succ_pos _)

/-! ## The canonical form -/

theorem Memory.mem_insertByte {m : Memory} {a : Nat} {b : Byte} {c : Host.Cell}
    (h : c ∈ Memory.insertByte m a b) : c = (a, b) ∨ c ∈ m := by
  induction m with
  | nil => simpa [Memory.insertByte] using h
  | cons d m ih =>
    unfold Memory.insertByte at h
    split at h
    · simpa using h
    · split at h
      · rcases List.mem_cons.mp h with h | h
        · exact .inl h
        · exact .inr (List.mem_cons_of_mem _ h)
      · rcases List.mem_cons.mp h with h | h
        · exact .inr (h ▸ List.mem_cons_self)
        · rcases ih h with h | h
          · exact .inl h
          · exact .inr (List.mem_cons_of_mem _ h)

theorem Memory.insertByte_rising {m : Memory} {a : Nat} {b : Byte}
    (h : m.Pairwise (fun c d => c.1 < d.1)) : (Memory.insertByte m a b).Pairwise (fun c d => c.1 < d.1) := by
  induction m with
  | nil => simp [Memory.insertByte]
  | cons d m ih =>
    have hd := (List.pairwise_cons.mp h).1
    have hm := (List.pairwise_cons.mp h).2
    unfold Memory.insertByte
    split
    · rename_i ha
      refine List.pairwise_cons.mpr ⟨?_, h⟩
      intro c hc
      rcases List.mem_cons.mp hc with rfl | hc
      · exact ha
      · exact Nat.lt_trans ha (hd c hc)
    · split
      · rename_i e
        exact List.pairwise_cons.mpr ⟨fun c hc => e ▸ hd c hc, hm⟩
      · rename_i h1 h2
        refine List.pairwise_cons.mpr ⟨?_, ih hm⟩
        intro c hc
        rcases Memory.mem_insertByte hc with rfl | hc
        · show d.1 < a
          omega
        · exact hd c hc

/-- Writing a byte keeps the canonical form. -/
theorem Memory.wf_writeByte {m : Memory} (h : Memory.wf m) (a : Nat) (b : Byte) :
    Memory.wf (Memory.writeByte m a b) := by
  unfold Memory.writeByte
  split
  · exact ⟨h.1.filter _, fun c hc => h.2 c (List.mem_filter.mp hc).1⟩
  · rename_i hb
    refine ⟨Memory.insertByte_rising h.1, fun c hc => ?_⟩
    rcases Memory.mem_insertByte hc with rfl | hc
    · exact hb
    · exact h.2 c hc

/-- Writing a word keeps the canonical form. -/
theorem Memory.wf_writeWord {m : Memory} (h : Memory.wf m) (a : Nat) (w : Word) :
    Memory.wf (Memory.writeWord m a w) :=
  Memory.wf_writeByte (Memory.wf_writeByte h _ _) _ _

/-- Every listed address lies below `n`. -/
def Memory.below (n : Nat) (m : Memory) : Prop := ∀ c ∈ m, c.1 < n

theorem Memory.below_writeByte {n : Nat} {m : Memory} (h : Memory.below n m) {a : Nat} (ha : a < n) (b : Byte) :
    Memory.below n (Memory.writeByte m a b) := by
  intro c hc
  unfold Memory.writeByte at hc
  split at hc
  · exact h c (List.mem_filter.mp hc).1
  · rcases Memory.mem_insertByte hc with rfl | hc
    · exact ha
    · exact h c hc

/-- A `MemWrite` lists no address past the end of display memory. -/
theorem State.below_memWrite {s : State} (h : Memory.below (2 * s.cfg.vramWords) s.mem) (a : VAddr) (w : Word) :
    Memory.below (2 * s.cfg.vramWords) (s.memWrite a w).mem := by
  have := s.vramIndex_lt a
  exact Memory.below_writeByte (Memory.below_writeByte h (by omega) _) (by omega) _

/-- Two canonical memories that read alike are the same memory. -/
theorem Memory.eq_of_wf {m n : Memory} (hm : Memory.wf m) (hn : Memory.wf n)
    (h : ∀ a, Memory.readByte m a = Memory.readByte n a) : m = n := by
  have past : ∀ (l : Memory) (a : Nat), (∀ c ∈ l, a < c.1) → Memory.readByte l a = unlistedByte a := by
    intro l
    induction l with
    | nil => intro a _; rfl
    | cons c l ih =>
      intro a ha
      have h1 := ha c List.mem_cons_self
      have h2 : a ≠ c.1 := by omega
      simp [Memory.readByte, h2, ih a (fun d hd => ha d (List.mem_cons_of_mem _ hd))]
  induction m generalizing n with
  | nil =>
    cases n with
    | nil => rfl
    | cons d n =>
      exfalso
      have := h d.1
      simp only [Memory.readByte, if_true] at this
      exact hn.2 d List.mem_cons_self this.symm
  | cons c m ih =>
    cases n with
    | nil =>
      exfalso
      have := h c.1
      simp only [Memory.readByte, if_true] at this
      exact hm.2 c List.mem_cons_self this
    | cons d n =>
      have hc := List.pairwise_cons.mp hm.1
      have hd := List.pairwise_cons.mp hn.1
      have key : c = d := by
        have e1 := h c.1
        have e2 := h d.1
        simp only [Memory.readByte, if_true] at e1 e2
        by_cases hcd : c.1 = d.1
        · rw [if_pos hcd] at e1
          exact Prod.ext hcd e1
        · exfalso
          rcases Nat.lt_or_gt_of_ne hcd with hlt | hgt
          · rw [if_neg hcd, past n c.1 (fun e he => Nat.lt_trans hlt (hd.1 e he))] at e1
            exact hm.2 c List.mem_cons_self e1
          · rw [if_neg (fun e => hcd e.symm), past m d.1 (fun e he => Nat.lt_trans hgt (hc.1 e he))] at e2
            exact hn.2 d List.mem_cons_self e2.symm
      subst key
      congr 1
      refine ih ⟨hc.2, fun e he => hm.2 e (List.mem_cons_of_mem _ he)⟩
        ⟨hd.2, fun e he => hn.2 e (List.mem_cons_of_mem _ he)⟩ ?_
      intro a
      by_cases ha : a = c.1
      · rw [ha, past m c.1 hc.1, past n c.1 hd.1]
      · simpa [Memory.readByte, ha] using h a

end Sys2Proof.Machine
end

