-- ==== Sys2Proof/Laws/Operations.lean ====
section
/-! SUPPORT. What each shared operation can do, said once: the steps of a run, the address registers, the
read-modify-writes of a transfer, the queued result bytes, the rows of a pattern. -/

namespace Sys2Proof.Machine

/-! ## Runs -/

/-- A step with an event pending is that event, whole (R8). -/
theorem step_cons {s : State} {e : Event} {rest : List Event} (h : s.events = e :: rest) :
    step s = handleEvent e { s with events := rest } := by
  show runNext s = _
  simp [runNext, h]

/-- A step with no event pending changes nothing (R269). -/
theorem step_idle {s : State} (h : s.events = []) : step s = .next s := by
  show runNext s = _
  simp [runNext, h]

/-- Every step answers a next state (R255). -/
theorem step_total (s : State) : ∃ t, step s = .next t := by
  cases h : s.events with
  | nil => exact ⟨s, step_idle h⟩
  | cons e rest => rw [step_cons h]; exact handleEvent_total e _

@[simp] theorem run_zero (s : State) : Sys2Proof.core.run 0 s = .next s := rfl

/-- A run goes on from the state its first step answers. -/
theorem run_succ {k : Nat} {s t : State} (h : step s = .next t) :
    Sys2Proof.core.run (k + 1) s = Sys2Proof.core.run k t := by
  have e : ∀ (M : Host.Core) {s t : M.State}, M.step s = .next t → M.run (k + 1) s = M.run k t := by
    intro M s t h
    simp only [Host.Core.run, h]
  exact e Sys2Proof.core h

/-- A run of `j + k` steps is a run of `k` from where `j` steps lead. -/
theorem run_add {j k : Nat} {s t : State} (h : Sys2Proof.core.run j s = .next t) :
    Sys2Proof.core.run (j + k) s = Sys2Proof.core.run k t := by
  induction j generalizing s with
  | zero =>
    cases h
    rw [Nat.zero_add]
  | succ j ih =>
    obtain ⟨u, hu⟩ := step_total s
    rw [run_succ hu] at h
    rw [Nat.succ_add, run_succ hu]
    exact ih h

/-! ## The address registers (R150) -/

theorem iterate_succ_last {α : Type} (f : α → α) (n : Nat) (a : α) :
    Nat.iterate f (n + 1) a = f (Nat.iterate f n a) := Function.iterate_succ_apply' f n a

@[simp] theorem AddrRegs.advanceN_zero (a : AddrRegs) (p : Byte) (d : BitVec 3) : a.advanceN p d 0 = a := rfl

theorem AddrRegs.advanceN_succ (a : AddrRegs) (p : Byte) (d : BitVec 3) (n : Nat) :
    a.advanceN p d (n + 1) = (a.advanceN p d n).advance p d := iterate_succ_last _ n a

theorem AddrRegs.advanceN_add (a : AddrRegs) (p : Byte) (d : BitVec 3) (m n : Nat) :
    (a.advanceN p d m).advanceN p d n = a.advanceN p d (m + n) := by
  unfold AddrRegs.advanceN
  rw [Nat.add_comm, Function.iterate_add_apply]

/-! ## Read-modify-writes (R155, R156, R162) -/

/-- Display memory after the read-modify-writes of `n` successive places, the data of the j-th being `data j`. -/
def State.memPlotted (s : State) (m : Memory) (a : AddrRegs) (data : Nat → Word) (lane : Word) (n : Nat) : Memory :=
  (List.range n).foldl
    (fun m j =>
      Memory.writeWord m (s.vramIndex (a.advanceN s.pitch s.fig.dir j).ead)
        (modifyWord s.disp.mod (Memory.readWord m (s.vramIndex (a.advanceN s.pitch s.fig.dir j).ead)) (data j)
          ((a.advanceN s.pitch s.fig.dir j).mask &&& lane)))
    m

/-- Everything `n` writes of a transfer do. -/
theorem State.plotN_eq (s : State) (data lane : Word) (n : Nat) :
    s.plotN data lane n =
      { s with
        mem := s.memPlotted s.mem s.addr (fun _ => data) lane n, addr := s.addr.advanceN s.pitch s.fig.dir n } := by
  induction n with
  | zero => rfl
  | succ n ih =>
    have h : s.plotN data lane (n + 1) = (s.plotN data lane n).plot data lane (s.plotN data lane n).fig.dir :=
      iterate_succ_last _ n s
    rw [h, ih]
    simp only [State.plot, State.modifyAtEad, State.advanceEad, State.memWrite, AddrRegs.advanceN_succ,
      State.memPlotted, List.range_succ, List.foldl_append, List.foldl_cons, List.foldl_nil, State.memRead,
      State.vramIndex]

/-- A run of word writes leaves every byte outside their words. -/
theorem Memory.readByte_foldl_writeWord {l : List Nat} {place : Nat → Nat} (value : Memory → Nat → Word)
    (m : Memory) {x : Nat} (h : ∀ j ∈ l, x / 2 ≠ place j) :
    Memory.readByte (l.foldl (fun m j => Memory.writeWord m (place j) (value m j)) m) x = Memory.readByte m x := by
  induction l generalizing m with
  | nil => rfl
  | cons a l ih =>
    rw [List.foldl_cons, ih _ (fun j hj => h j (List.mem_cons_of_mem _ hj))]
    exact Memory.readByte_writeWord_of_ne _ _ _ _ (h a List.mem_cons_self)

/-- A run of read-modify-writes leaves every byte outside its words. -/
theorem State.readByte_memPlotted (s : State) (m : Memory) (a : AddrRegs) (data : Nat → Word) (lane : Word) {n x : Nat}
    (h : ∀ j, j < n → x / 2 ≠ s.vramIndex (a.advanceN s.pitch s.fig.dir j).ead) :
    Memory.readByte (s.memPlotted m a data lane n) x = Memory.readByte m x :=
  Memory.readByte_foldl_writeWord _ m (fun j hj => h j (List.mem_range.mp hj))

/-- `m + n` places are the first `m` and then `n` more. -/
theorem State.memPlotted_add (s : State) (mem : Memory) (a : AddrRegs) (data : Nat → Word) (lane : Word) (m n : Nat) :
    s.memPlotted mem a data lane (m + n) =
      s.memPlotted (s.memPlotted mem a data lane m) (a.advanceN s.pitch s.fig.dir m) (fun j => data (m + j)) lane n := by
  unfold State.memPlotted
  rw [List.range_add, List.foldl_append, List.foldl_map]
  simp only [AddrRegs.advanceN_add]

theorem State.memPlotted_congr (s : State) (mem : Memory) (a : AddrRegs) {f g : Nat → Word} (lane : Word) {n : Nat}
    (h : ∀ j, j < n → f j = g j) : s.memPlotted mem a f lane n = s.memPlotted mem a g lane n := by
  unfold State.memPlotted
  apply List.foldl_ext
  intro m j hj
  rw [h j (List.mem_range.mp hj)]

/-! ## Pattern rows (R162) -/

/-- The first `k` pattern dots of a row, each `z` times. -/
theorem State.drawDot_foldl (s : State) (pat : Byte) {z : Nat} (hz : 0 < z) (k : Nat) :
    (List.range k).foldl (fun s b => s.drawDot (pat.getLsbD b) z) s =
      { s with
        mem := s.memPlotted s.mem s.addr
          (fun c => if pat.getLsbD (c / z) then 0xFFFF#16 else 0#16) 0xFFFF#16 (k * z)
        addr := s.addr.advanceN s.pitch s.fig.dir (k * z) } := by
  induction k with
  | zero => simp [State.memPlotted]
  | succ k ih =>
    have dot : ∀ (u : State) (on : Bool),
        u.drawDot on z = u.plotN (if on then 0xFFFF#16 else 0#16) 0xFFFF#16 z := fun _ _ => rfl
    rw [List.range_succ, List.foldl_append, ih, List.foldl_cons, List.foldl_nil, dot, State.plotN_eq]
    simp only [AddrRegs.advanceN_add]
    rw [Nat.succ_mul]
    congr 1
    rw [State.memPlotted_add]
    apply State.memPlotted_congr
    intro c hc
    have : (k * z + c) / z = k := by rw [Nat.mul_comm, Nat.mul_add_div hz, Nat.div_eq_of_lt hc, Nat.add_zero]
    rw [this]

/-- Everything one drawn row does: `8 z` dots from the row's start, then one step in the row direction. -/
theorem State.drawRow_eq (s : State) (pat : Byte) {z : Nat} (hz : 0 < z) :
    s.drawRow pat z =
      { s with
        mem := s.memPlotted s.mem s.addr
          (fun c => if pat.getLsbD (c / z) then 0xFFFF#16 else 0#16) 0xFFFF#16 (8 * z)
        addr := s.addr.advance s.pitch (rowDirection s.fig.dir) } := by
  unfold State.drawRow State.drawDots
  rw [s.drawDot_foldl pat hz 8]
  rfl

/-! ## Queued result bytes (R158, R180, R182, R287) -/

/-- Everything enqueued result bytes do, in a READ queue: those that fit are appended, the rest logged, FF says
whether 16 are queued, and the first byte that fits sets DR and clears FE. -/
theorem State.enqueueResults_eq (s : State) (bs : List Byte) (hd : s.fifoDir = .read) (hl : s.fifo.length ≤ 16)
    (hff : s.status .ff = decide (s.fifo.length = 16)) :
    ∃ sr : Byte,
      s.enqueueResults bs =
        { s with
          fifo := s.fifo ++ (bs.take (16 - s.fifo.length)).map (fun b => ⟨b, false⟩), sr := sr
          out := { s.out with
            log := s.out.log ++ (bs.drop (16 - s.fifo.length)).map (fun b => ⟨.fifoOverflow, b⟩) } }
        ∧ statusGet sr .ff = decide (16 ≤ s.fifo.length + bs.length)
        ∧ (bs ≠ [] → s.fifo.length < 16 → statusGet sr .dr = true ∧ statusGet sr .fe = false)
        ∧ (bs = [] ∨ s.fifo.length = 16 → statusGet sr .dr = s.status .dr ∧ statusGet sr .fe = s.status .fe)
        ∧ ∀ x : StatusBit, x ≠ .fe → x ≠ .ff → x ≠ .dr → statusGet sr x = s.status x := by
  induction bs generalizing s with
  | nil =>
    refine ⟨s.sr, by simp, ?_, by simp, fun _ => ⟨rfl, rfl⟩, fun _ _ _ _ => rfl⟩
    show s.status .ff = _
    rw [hff]
    simp
    omega
  | cons b bs ih =>
    rw [State.enqueueResults_cons]
    rcases s.enqueue_cases b false with ⟨h, e⟩ | ⟨h, e⟩
    · simp only [fifoDepth] at h
      obtain ⟨sr, e1, e2, e3, e4, e5⟩ :=
        ih (s.enqueue b false) (by rw [e]; exact hd) (by rw [e]; exact hl) (by rw [e]; exact hff)
      refine ⟨sr, ?_, ?_, fun _ hlt => absurd h (Nat.ne_of_lt hlt), fun _ => ?_, fun x a c d => ?_⟩
      · rw [e1, e]; simp [State.raiseLog, h]
      · rw [e2, e]; simp [h]
      · have := e4 (by rw [e]; exact .inr h)
        rw [e] at this
        exact this
      · rw [e5 x a c d, e]; rfl
    · simp only [fifoDepth] at h
      have hff' : (s.enqueue b false).status .ff = decide ((s.enqueue b false).fifo.length = 16) := by
        rw [e]
        simp only [State.status, statusGet_afterEnqueue, fifoDepth, List.length_append, List.length_cons,
          List.length_nil]
        simp only [State.status] at hff
        rw [hff]
        by_cases hh : s.fifo.length = 15 <;> simp [hh, h]
      obtain ⟨sr, e1, e2, e3, e4, e5⟩ := ih (s.enqueue b false) (by rw [e]; exact hd) (by rw [e]; simp; omega) hff'
      refine ⟨sr, ?_, ?_, fun _ hlt => ?_, fun hh => ?_, fun x a c d => ?_⟩
      · rw [e1, e]
        have h16 : 16 - s.fifo.length = (16 - (s.fifo.length + 1)) + 1 := by omega
        simp only [List.length_append, List.length_cons, List.length_nil, Nat.zero_add]
        rw [h16]
        simp
      · rw [e2, e]; simp; omega
      · by_cases hb : bs = [] ∨ (s.enqueue b false).fifo.length = 16
        · rw [(e4 hb).1, (e4 hb).2, e]
          simp [State.status, statusGet_afterEnqueue, hd]
        · simp only [not_or] at hb
          refine e3 hb.1 ?_
          have h2 := hb.2
          rw [e] at h2 ⊢
          simp at h2 ⊢
          omega
      · simp at hh; omega
      · rw [e5 x a c d]; exact State.status_enqueue_other s b false x a c d

/-- Enqueued result bytes do not read the address registers. -/
theorem State.enqueueResults_withAddr (s : State) (a : AddrRegs) (bs : List Byte) :
    State.enqueueResults { s with addr := a } bs = { s.enqueueResults bs with addr := a } := by
  induction bs generalizing s with
  | nil => rfl
  | cons b bs ih =>
    rw [State.enqueueResults_cons, State.enqueueResults_cons, ← ih]
    congr 1
    rcases s.enqueue_cases b false with ⟨h, e⟩ | ⟨h, e⟩
    · rw [e]; exact State.enqueue_full (s := { s with addr := a }) h b false
    · rw [e]; exact State.enqueue_notFull (s := { s with addr := a }) h b false

/-- Everything `n` words of an RDAT do. -/
theorem State.readOutN_eq (s : State) (t : XferType) (n : Nat) :
    s.readOutN t n =
      { s.enqueueResults ((List.range n).flatMap
          (fun j => rdatBytes t (s.memRead (s.addr.advanceN s.pitch s.fig.dir j).ead))) with
        addr := s.addr.advanceN s.pitch s.fig.dir n } := by
  induction n with
  | zero => rfl
  | succ n ih =>
    have h : s.readOutN t (n + 1) = (s.readOutN t n).readOut t := iterate_succ_last _ n s
    rw [h, ih, List.range_succ, List.flatMap_append, State.enqueueResults_append, AddrRegs.advanceN_succ]
    unfold State.readOut
    rw [State.enqueueResults_withAddr]
    simp only [State.advanceEad, List.flatMap_cons, List.flatMap_nil, List.append_nil, State.memRead, State.vramIndex,
      State.enqueueResults_frame]

end Sys2Proof.Machine
end

