-- ==== Sys2Proof/Laws/PerInstr.lean ====
section
/-! SUPPORT. Statements for all instructions, made per instruction. `EncodesInItsRow`: the command byte of an
instruction, whatever its operands, matches the row of its own name in the table of R66 and no other row. -/

namespace Sys2Proof.Laws

/-- The encoded byte of `i` matches its own row of the opcode table and only that row (R62, R66). -/
def EncodesInItsRow.Statement (i : Instr) : Prop :=
  ∀ r ∈ opTable, r.matchesByte (encode i) = true ↔ r.name = i.mnemonic

theorem EncodesInItsRow.reset : EncodesInItsRow.Statement .reset := by
  unfold EncodesInItsRow.Statement
  decide

theorem EncodesInItsRow.sync (f : Bool) : EncodesInItsRow.Statement (.sync f) := by
  unfold EncodesInItsRow.Statement
  cases f <;> decide

theorem EncodesInItsRow.vsync (f : Bool) : EncodesInItsRow.Statement (.vsync f) := by
  unfold EncodesInItsRow.Statement
  cases f <;> decide

theorem EncodesInItsRow.cchar : EncodesInItsRow.Statement .cchar := by
  unfold EncodesInItsRow.Statement
  decide

theorem EncodesInItsRow.start : EncodesInItsRow.Statement .start := by
  unfold EncodesInItsRow.Statement
  decide

theorem EncodesInItsRow.bctrl (f : Bool) : EncodesInItsRow.Statement (.bctrl f) := by
  unfold EncodesInItsRow.Statement
  cases f <;> decide

theorem EncodesInItsRow.zoom : EncodesInItsRow.Statement .zoom := by
  unfold EncodesInItsRow.Statement
  decide

theorem EncodesInItsRow.pitch : EncodesInItsRow.Statement .pitch := by
  unfold EncodesInItsRow.Statement
  decide

theorem EncodesInItsRow.curs : EncodesInItsRow.Statement .curs := by
  unfold EncodesInItsRow.Statement
  decide

theorem EncodesInItsRow.pram (n : BitVec 4) : EncodesInItsRow.Statement (.pram n) := by
  unfold EncodesInItsRow.Statement
  revert n
  decide

theorem EncodesInItsRow.mask : EncodesInItsRow.Statement .mask := by
  unfold EncodesInItsRow.Statement
  decide

theorem EncodesInItsRow.figs : EncodesInItsRow.Statement .figs := by
  unfold EncodesInItsRow.Statement
  decide

theorem EncodesInItsRow.wdat (t : XferType) (m : ModMode) : EncodesInItsRow.Statement (.wdat t m) := by
  unfold EncodesInItsRow.Statement
  cases t <;> cases m <;> decide

theorem EncodesInItsRow.rdat (t : XferType) (m : ModMode) : EncodesInItsRow.Statement (.rdat t m) := by
  unfold EncodesInItsRow.Statement
  cases t <;> cases m <;> decide

theorem EncodesInItsRow.figd : EncodesInItsRow.Statement .figd := by
  unfold EncodesInItsRow.Statement
  decide

theorem EncodesInItsRow.gchrd : EncodesInItsRow.Statement .gchrd := by
  unfold EncodesInItsRow.Statement
  decide

theorem EncodesInItsRow.dmar (t : XferType) (m : ModMode) : EncodesInItsRow.Statement (.dmar t m) := by
  unfold EncodesInItsRow.Statement
  cases t <;> cases m <;> decide

theorem EncodesInItsRow.dmaw (t : XferType) (m : ModMode) : EncodesInItsRow.Statement (.dmaw t m) := by
  unfold EncodesInItsRow.Statement
  cases t <;> cases m <;> decide

theorem EncodesInItsRow.curd : EncodesInItsRow.Statement .curd := by
  unfold EncodesInItsRow.Statement
  decide

theorem EncodesInItsRow.lprd : EncodesInItsRow.Statement .lprd := by
  unfold EncodesInItsRow.Statement
  decide

end Sys2Proof.Laws
end

