-- ==== Sys2Proof/Tests/Slice0.lean ====
section
/-! SUPPORT. Tests: command bytes written out from R61 and R66, the well-formedness checks, one step of each command
with the results of the spec's own vectors (95_test_vectors.md), and a witness for every obligation that has
hypotheses. -/

namespace Sys2Proof.Tests
open Sys2Proof.Machine

/-! ## Helpers -/

/-- The state after one step. -/
def after (s : State) : State :=
  match step s with
  | .next t => t
  | .fault _ => s
  | .refused _ => s

/-- Every step answers the state `after` names. -/
theorem step_after (s : State) : step s = .next (after s) := by
  obtain ⟨t, h⟩ := step_total s
  simp [after, h]

/-- The host writes a command byte next (`C xx`, R70). -/
def cmd (b : Byte) (s : State) : State := { s with events := [.portWrite 1 b] }

/-- The host writes a parameter byte next (`P xx`, R70). -/
def par (b : Byte) (s : State) : State := { s with events := [.portWrite 0 b] }

/-- Another event comes next. -/
def event (e : Event) (s : State) : State := { s with events := [e] }

/-- The parameter registers holding a command byte and parameter bytes. -/
def prOf (b : Byte) (ps : List Byte) : List Byte := b :: ps ++ List.replicate (15 - ps.length) 0#8

/-- `s` with the dispatcher awaiting parameters of `i`, those of `ps` already stored. -/
def awaiting (i : Instr) (ps : List Byte) (s : State := State.reset) : State :=
  { s with
    disp := { s.disp with
      cr := encode i, cmd := .command i.mnemonic, phase := .await, pcount := BitVec.ofNat 4 ps.length
      pr := prOf (encode i) ps } }

/-- A store of one word into empty display memory. -/
def memWith (a : Nat) (w : Word) : Memory := Memory.writeWord [] a w

/-! ## Decoding: bytes written out bit by bit from the formats of R61 and the values of R66, one or more a row -/

theorem test_decode_reset : decode 0b00000000#8 = .ok .reset := by decide
theorem test_decode_sync : decode 0b00001110#8 = .ok (.sync false) ∧ decode 0b00001111#8 = .ok (.sync true) := by decide
theorem test_decode_vsync : decode 0b01101110#8 = .ok (.vsync false) ∧ decode 0b01101111#8 = .ok (.vsync true) := by
  decide
theorem test_decode_cchar : decode 0b01001011#8 = .ok .cchar := by decide
theorem test_decode_start : decode 0b01101011#8 = .ok .start := by decide
theorem test_decode_bctrl : decode 0b00001100#8 = .ok (.bctrl false) ∧ decode 0b00001101#8 = .ok (.bctrl true) := by
  decide
theorem test_decode_zoom : decode 0b01000110#8 = .ok .zoom := by decide
theorem test_decode_pitch : decode 0b01000111#8 = .ok .pitch := by decide
theorem test_decode_curs : decode 0b01001001#8 = .ok .curs := by decide
theorem test_decode_pram : decode 0b01110000#8 = .ok (.pram 0#4) ∧ decode 0b01111110#8 = .ok (.pram 14#4) := by decide
theorem test_decode_mask : decode 0b01001010#8 = .ok .mask := by decide
theorem test_decode_figs : decode 0b01001100#8 = .ok .figs := by decide
theorem test_decode_wdat :
    decode 0b00100011#8 = .ok (.wdat .word .set) ∧ decode 0b00110001#8 = .ok (.wdat .lowByte .complement)
      ∧ decode 0b00111010#8 = .ok (.wdat .highByte .reset) ∧ decode 0b00101000#8 = .ok (.wdat .invalid .replace) := by
  decide
theorem test_decode_rdat :
    decode 0b10100000#8 = .ok (.rdat .word .replace) ∧ decode 0b10101001#8 = .ok (.rdat .invalid .complement)
      ∧ decode 0b10111011#8 = .ok (.rdat .highByte .set) := by decide
theorem test_decode_figd : decode 0b01101100#8 = .ok .figd := by decide
theorem test_decode_gchrd : decode 0b01101000#8 = .ok .gchrd := by decide
theorem test_decode_dmar : decode 0b10100100#8 = .ok (.dmar .word .replace) ∧ decode 0b10110110#8 = .ok (.dmar .lowByte .reset) := by
  decide
theorem test_decode_dmaw : decode 0b00100101#8 = .ok (.dmaw .word .complement) ∧ decode 0b00111111#8 = .ok (.dmaw .highByte .set) := by
  decide
theorem test_decode_curd : decode 0b11100000#8 = .ok .curd := by decide
theorem test_decode_lprd : decode 0b11000000#8 = .ok .lprd := by decide

/-- Bytes of R67, each next to a recognised one, match no row. -/
theorem test_decode_unknown :
    decode 0x01#8 = .error (.invalid 0x01#8) ∧ decode 0x10#8 = .error (.invalid 0x10#8)
      ∧ decode 0x48#8 = .error (.invalid 0x48#8) ∧ decode 0x6D#8 = .error (.invalid 0x6D#8)
      ∧ decode 0xC1#8 = .error (.invalid 0xC1#8) ∧ decode 0xFF#8 = .error (.invalid 0xFF#8) := by decide

/-- The table's numbering: bit 0 is bit 0 of the command byte, and a narrower row reads 0 above its bits. -/
theorem test_decode_table_word :
    decodeTableWord 8 0x7E = some (.pram 14#4) ∧ decodeTableWord 8 0x17E = some (.pram 14#4)
      ∧ decodeTableWord 8 0x48 = none := by decide

/-- The word placed by `withFetchWord` is the command the next step runs. -/
theorem test_withFetchWord : (after (State.reset.withFetchWord 8 0x6B)).de = true
    ∧ (after ({ State.reset with cfg := { Config.default with portMap := .threePort } }.withFetchWord 8 0x6B)).de
        = true := by decide

/-! ## Well-formedness: each check refuses an ill-formed command -/

theorem test_wf_wdat_invalid_type : Command.wellFormed ⟨.wdat .invalid .replace, []⟩ = false := by decide
theorem test_wf_rdat_invalid_type : Command.wellFormed ⟨.rdat .invalid .set, []⟩ = false := by decide
theorem test_wf_immediate_param : Command.wellFormed ⟨.start, [1#8]⟩ = false := by decide
theorem test_wf_reset_partial : Command.wellFormed ⟨.reset, [1#8, 2#8]⟩ = false := by decide
theorem test_wf_fixed_short : Command.wellFormed ⟨.curs, [1#8, 2#8, 3#8]⟩ = false := by decide
theorem test_wf_fixed_long : Command.wellFormed ⟨.zoom, [1#8, 2#8]⟩ = false := by decide
theorem test_wf_streaming_half : Command.wellFormed ⟨.wdat .word .replace, [1#8, 2#8, 3#8]⟩ = false := by decide
theorem test_wf_progressive_half : Command.wellFormed ⟨.figs, [1#8, 2#8]⟩ = false := by decide
theorem test_wf_progressive_long : Command.wellFormed ⟨.figs, List.replicate 13 0#8⟩ = false := by decide
theorem test_wf_accepts :
    Command.wellFormed ⟨.reset, []⟩ = true ∧ Command.wellFormed ⟨.reset, List.replicate 8 0#8⟩ = true
      ∧ Command.wellFormed ⟨.curs, [1#8, 2#8, 3#8, 4#8]⟩ = true
      ∧ Command.wellFormed ⟨.pram 0#4, List.replicate 17 0#8⟩ = true
      ∧ Command.wellFormed ⟨.figs, [1#8, 2#8, 3#8]⟩ = true
      ∧ Command.wellFormed ⟨.dmar .invalid .set, []⟩ = true := by decide

/-! ## One step of each command -/

/-- S5. -/
theorem test_reset :
    let t := after (cmd 0x00#8 { State.reset with
      de := true, addr := ⟨0x31234#18, 5#4, 0xF00F#16⟩, ra := Vector.replicate 16 0xAA#8 })
    t.de = false ∧ t.addr = ⟨0#18, 0#4, 0#16⟩ ∧ t.out.log = [] ∧ t.disp.phase = .await
      ∧ t.ra.toList = [0#8, 0#8, 0#8, 0x19#8] ++ List.replicate 12 0xAA#8 := by decide

/-- V13, at its last byte. -/
theorem test_reset_eighth :
    let t := after (par 0x01#8
      (awaiting .reset [0x02#8, 0x4E#8, 0x27#8, 0x0E#8, 0x28#8, 0x06#8, 0x68#8] { State.reset with de := true }))
    t.geom.aw = 80#9 ∧ t.geom.al = 360#10 ∧ t.de = false ∧ t.disp.phase = .idle ∧ t.out.log = [] := by decide

/-- S2. -/
theorem test_sync :
    let t := after (par 0x01#8
      (awaiting (.sync true) [0x02#8, 0x4E#8, 0x27#8, 0x0E#8, 0x28#8, 0x06#8, 0x68#8]))
    t.geom = { mode := 0x02#8, aw := 80#9, hs := 8#6, vs := 17#5, hfp := 4#7, hbp := 41#7, vfp := 6#6, vbp := 0#6,
               al := 360#10 }
      ∧ t.de = true ∧ t.geom.htc = 133 ∧ t.geom.vtc = 383 := by decide

/-- V15, at its last byte. -/
theorem test_sync_clamp :
    let t := after (par 0x00#8 (awaiting (.sync false) (List.replicate 7 0#8)))
    t.geom = { mode := 0#8, aw := 2#9, hs := 1#6, vs := 0#5, hfp := 1#7, hbp := 1#7, vfp := 0#6, vbp := 0#6,
               al := 0#10 }
      ∧ t.de = false ∧ t.geom.htc = 5 ∧ t.geom.vtc = 1 ∧ t.out.log = [⟨.configClamp, 0#8⟩] := by decide

/-- V17; master releases a held field (R114). -/
theorem test_vsync : (after (cmd 0x6E#8 State.reset)).master = false
    ∧ (after (cmd 0x6F#8 { State.reset with master := false, raster := { State.reset.raster with vwait := true } })).master
        = true
    ∧ (after (cmd 0x6F#8 { State.reset with raster := { State.reset.raster with vwait := true } })).raster.vwait = false := by
  decide

/-- V18. -/
theorem test_cchar : (after (par 0x7B#8 (awaiting .cchar [0x8F#8, 0x6D#8]))).cursor =
    { lr := 16#6, dc := true, ctop := 13#5, cbot := 15#5, sc := true, br := 13#5 } := by decide

/-- V20. -/
theorem test_start : (after (cmd 0x6B#8 State.reset)).de = true := by decide

/-- V20. -/
theorem test_bctrl : (after (cmd 0x0C#8 { State.reset with de := true })).de = false
    ∧ (after (cmd 0x0D#8 State.reset)).de = true := by decide

/-- V21. -/
theorem test_zoom : (after (par 0x21#8 (awaiting .zoom []))).zoom = ⟨3#5, 2#5⟩
    ∧ (after (par 0xFF#8 (awaiting .zoom []))).zoom = ⟨16#5, 16#5⟩ := by decide

/-- V22. -/
theorem test_pitch : (after (par 0x28#8 (awaiting .pitch []))).pitch = 40#8 := by decide

/-- V23, V24. -/
theorem test_curs :
    (after (par 0x50#8 (awaiting .curs [0x34#8, 0x12#8, 0x03#8]))).addr = ⟨0x31234#18, 5#4, 0#16⟩
      ∧ (after (par 0xFF#8 (awaiting .curs [0xFF#8, 0xFF#8, 0xFF#8]))).addr = ⟨0x3FFFF#18, 15#4, 0#16⟩ := by decide

/-- S4: an interrupted CURS writes nothing. -/
theorem test_curs_interrupted :
    let t := after (cmd 0x6B#8 (awaiting .curs [0x34#8, 0x12#8, 0x03#8]))
    t.addr = State.reset.addr ∧ t.de = true ∧ t.out.log = [⟨.paramUnderrun, 0x49#8⟩] := by decide

/-- V25, its first and third steps. -/
theorem test_pram :
    (after (cmd 0x7E#8 State.reset)).disp.raPtr = 14#5
      ∧ (after (par 0xAA#8 { awaiting (.pram 14#4) [] with disp := { (awaiting (.pram 14#4) []).disp with raPtr := 14#5 } })).ra.toList
          = List.replicate 14 0#8 ++ [0xAA#8, 0#8] := by decide

/-- V25, its last step: past `ra[15]` nothing is written and nothing logged. -/
theorem test_pram_past_end :
    let s := { awaiting (.pram 14#4) [] with disp := { (awaiting (.pram 14#4) []).disp with raPtr := 16#5 } }
    (after (par 0xCC#8 s)).ra = s.ra ∧ (after (par 0xCC#8 s)).disp.raPtr = 16#5 ∧ (after (par 0xCC#8 s)).out.log = [] := by
  decide

/-- V26. -/
theorem test_mask : (after (par 0xF0#8 (awaiting .mask [0x0F#8]))).addr = ⟨0#18, 0#4, 0xF00F#16⟩ := by decide

/-- V28, its first and last steps. -/
theorem test_figs :
    (after (par 0x12#8 (awaiting .figs []))).fig.type = 2#5 ∧ (after (par 0x12#8 (awaiting .figs []))).fig.dir = 2#3
      ∧ (after (par 0x7F#8 (awaiting .figs [0x12#8, 0xFF#8]))).fig.dc = 0x3FFF#14
      ∧ (after (par 0x7F#8 (awaiting .figs [0x12#8, 0xFF#8]))).fig.gd = true := by decide

/-- V29, its eleventh byte. -/
theorem test_figs_last :
    let t := after (par 0x40#8 (awaiting .figs [5#8, 1#8, 0#8, 2#8, 0#8, 3#8, 0#8, 4#8, 0#8, 5#8]))
    t.fig.dm = 5#14 ∧ t.disp.phase = .idle := by decide

/-- V34: high byte, complement. -/
theorem test_wdat_high_byte :
    let t := after (par 0x0F#8 { awaiting (.wdat .highByte .complement) [] with
      mem := memWith 5 0xA5A5#16, addr := ⟨5#18, 0#4, 0xFFFF#16⟩
      disp := { (awaiting (.wdat .highByte .complement) []).disp with xtype := .highByte, mod := .complement } })
    Memory.readWord t.mem 5 = 0xAAA5#16 ∧ t.addr.ead = 5#18 := by decide

/-- V36: four dots set across a word boundary. -/
theorem test_wdat_dots :
    let t := after (par 0xFF#8 { awaiting (.wdat .word .set) [0xFF#8] with
      pitch := 40#8, addr := ⟨0x100#18, 14#4, 0x4000#16⟩, fig := { State.reset.fig with dir := 2#3, dc := 3#14 }
      disp := { (awaiting (.wdat .word .set) [0xFF#8]).disp with mod := .set } })
    Memory.readWord t.mem 0x100 = 0xC000#16 ∧ Memory.readWord t.mem 0x101 = 0x0003#16
      ∧ t.addr = ⟨0x101#18, 2#4, 0x0004#16⟩ ∧ t.fig.dc = 0#14 := by decide

/-- P2, steps 10 and 11 with the words in place. -/
theorem test_rdat :
    let t := after (cmd 0xA0#8 { State.reset with
      mem := Memory.writeWord (Memory.writeWord (memWith 0x10 0x1234#16) 0x11 0x1234#16) 0x12 0x5678#16
      pitch := 40#8, addr := ⟨0x10#18, 0#4, 0xFFFF#16⟩, fig := { State.reset.fig with dir := 2#3, dc := 2#14 } })
    t.fifo.map (fun e => e.byte) = [0x34#8, 0x12#8, 0x34#8, 0x12#8, 0x78#8, 0x56#8] ∧ t.sr = 0x01#8
      ∧ t.addr = ⟨0x13#18, 3#4, 0xFFFF#16⟩ ∧ t.fig.dc = 0#14 := by decide

/-- V38. -/
theorem test_rdat_invalid :
    let t := after (cmd 0xA9#8 State.reset)
    t.out.log = [⟨.invalidType, 0xA9#8⟩] ∧ t.fifoDir = .write ∧ t.fifo = [] ∧ t.disp.xtype = .invalid := by decide

/-- R252 (e), the other reading (log 18): the FIFO turned to READ and empty. -/
theorem test_rdat_invalid_turns :
    let t := after (cmd 0xA9#8 { State.reset with cfg := { Config.default with rdatInvalid := .turnsToRead } })
    t.out.log = [⟨.invalidType, 0xA9#8⟩] ∧ t.fifoDir = .read ∧ t.fifo = [] ∧ t.sr = 0x04#8 := by decide

/-- A controller with the fewest parameter registers: PR_SIZE 12. -/
theorem test_pr_size :
    let s := { State.reset with cfg := { Config.default with prBeyond := 0 } }
    (after (cmd 0x4C#8 s)).disp.pr = 0x4C#8 :: List.replicate 11 0#8
      ∧ (after (cmd 0x4C#8 State.reset)).disp.pr = 0x4C#8 :: List.replicate 15 0#8 := by decide

/-- V39. -/
theorem test_figd_stub :
    let t := after (cmd 0x6C#8 { State.reset with cfg := { Config.default with figdPolicy := .stub } })
    t.out.log = [⟨.unspecifiedFigd, 0x6C#8⟩] ∧ t.mem = [] ∧ t.runRefused = false := by decide

/-- V39 under REFUSE: the log entry and the mark. -/
theorem test_figd_refuse :
    (after (cmd 0x6C#8 State.reset)).out.log = [⟨.unspecifiedFigd, 0x6C#8⟩]
      ∧ (after (cmd 0x6C#8 State.reset)).runRefused = true := by decide

set_option maxRecDepth 8000 in
/-- V40 for one pattern byte set: the first row, its neighbour, and where the address registers end. -/
theorem test_gchrd :
    let t := after (cmd 0x68#8 { State.reset with
      pitch := 40#8, addr := ⟨0x100#18, 0#4, 1#16⟩, fig := { State.reset.fig with dir := 2#3 }
      ra := bankSet (bankSet State.reset.ra 15#4 0x81#8) 14#4 0x42#8 })
    Memory.readWord t.mem 0x100 = 0x0081#16 ∧ Memory.readWord t.mem 0x128 = 0x0042#16
      ∧ t.addr = ⟨0x240#18, 0#4, 1#16⟩ := by decide

/-- V41, its first step. -/
theorem test_dmar :
    let t := after (cmd 0xA4#8 State.reset)
    t.sr = 0x14#8 ∧ t.drq = true ∧ t.out.lines = [⟨.drq, true⟩] := by decide

/-- V41, its second step. -/
theorem test_dmaw :
    let t := after (cmd 0x25#8 { State.reset with sr := 0x14#8, drq := true })
    t.disp.mod = .complement ∧ t.disp.xtype = .word ∧ t.out.lines = [] ∧ t.sr = 0x14#8 := by decide

/-- V42, both forms. -/
theorem test_curd :
    let s := { State.reset with addr := ⟨0x31234#18, 5#4, 0#16⟩ }
    (after (cmd 0xE0#8 s)).fifo.map (fun e => e.byte) = [0x34#8, 0x12#8, 0x03#8, 0x20#8, 0x00#8]
      ∧ (after (cmd 0xE0#8 s)).sr = 0x01#8
      ∧ (after (cmd 0xE0#8 { s with cfg := { s.cfg with curdDadBytes := .one } })).fifo.map (fun e => e.byte)
          = [0x34#8, 0x12#8, 0x03#8, 0x50#8] := by decide

/-- V43, its third step. -/
theorem test_lprd :
    let t := after (cmd 0xC0#8 { State.reset with lad := 0x2ABCD#18, sr := 0x84#8 })
    t.fifo.map (fun e => e.byte) = [0xCD#8, 0xAB#8, 0x02#8] ∧ t.sr = 0x01#8 ∧ t.lad = 0x2ABCD#18 := by decide

/-! ## Dispatch, ports, events -/

/-- V5. -/
theorem test_unknown : (after (cmd 0xFF#8 State.reset)).out.log = [⟨.unknownOpcode, 0xFF#8⟩]
    ∧ (after (cmd 0xFF#8 State.reset)).disp.cmd = .invalid := by decide

/-- V3. -/
theorem test_stray : (after (par 0x55#8 State.reset)).out.log = [⟨.strayParam, 0x55#8⟩]
    ∧ (after (par 0x55#8 State.reset)).sr = 0x04#8 := by decide

/-- Code 8 of R250. -/
theorem test_bad_port :
    (after (event (.portWrite 0 0x12#8) { State.reset with cfg := { Config.default with portMap := .threePort } })).out.log
      = [⟨.badPort, 0#8⟩] := by decide

/-- V1, V2. -/
theorem test_reads : (after (event (.portRead 0) State.reset)).out.reads = [0x04#8]
    ∧ (after (event (.portRead 1) State.reset)).out.reads = [0xFF#8] := by decide

/-- V52, its first tick. -/
theorem test_tick : (after (event .tick State.reset)).out.lines = [⟨.blank, true⟩]
    ∧ (after (event .tick State.reset)).sr = 0x44#8 ∧ (after (event .tick State.reset)).raster.blinkCtr = 1#6 := by decide

/-- V45, row 111. -/
theorem test_gate : attrGate true true true = (false, false) ∧ cellClass true false false = .blank := by decide

/-- V46. -/
theorem test_partition :
    partitionAt (bankSet (bankSet (bankSet State.reset.ra 1#4 0x10#8) 2#4 0x31#8) 3#4 0xC2#8) 0
      = { sad := 0x11000#18, len := 35#10, im := true, wd := true } := by decide

/-- The geometry of P3 and V48, with the display enabled: character mode, 4 cells, `HTc` 7, `VTc` 5. -/
def small : State :=
  { State.reset with
    geom := { mode := 0x20#8, aw := 4#9, hs := 1#6, vs := 1#5, hfp := 1#7, hbp := 1#7, vfp := 0#6, vbp := 0#6,
              al := 4#10 }
    pitch := 4#8, de := true }

/-- V48. -/
theorem test_wide_line :
    let s := { small with
      ra := bankSet (bankSet State.reset.ra 0#4 0x30#8) 3#4 0x80#8
      mem := Memory.writeWord (memWith 0x30 0x4241#16) 0x31 0x4443#16 }
    (after (event (.renderLine 0) s)).out.pixels.map (fun p => p.charcode) = [0x41#16, 0x42#16, 0x43#16, 0x44#16] := by
  decide

/-! ## Witnesses: for every obligation with hypotheses, a state and operands that meet all of them, clause by clause,
at the ends of the ranges -/

/-- A READ queue of 16 unread bytes. -/
def full : State :=
  { State.reset with fifo := List.replicate 16 ⟨0x5A#8, false⟩, fifoDir := .read, sr := 0x03#8 }

/-- A READ queue of the five bytes of CURD. -/
def unread : State := after (cmd 0xE0#8 State.reset)

/-- The other port map. -/
def threePort : State := { State.reset with cfg := { Config.default with portMap := .threePort } }

/-- `pcount` set, nothing else. -/
def atCount (n : BitVec 4) : State := { State.reset with disp := { State.reset.disp with pcount := n } }

theorem witness_DecodeAndEncodeAgree : decode 0x7E#8 = .ok (.pram 14#4) := by decide

theorem witness_DecodeFollowsTable :
    (⟨.pram, 0xF0#8, 0x70#8⟩ : OpRow) ∈ opTable ∧ OpRow.matchesByte ⟨.pram, 0xF0#8, 0x70#8⟩ 0x7F#8 = true := by decide

theorem witness_EnqueueEffect : full.fifo.length = 16 ∧ unread.fifo.length ≠ 16 := by decide

theorem witness_DequeueEffect : State.reset.fifo = [] ∧ unread.fifo = ⟨0#8, false⟩ :: unread.fifo.tail := by decide

theorem witness_SetDirectionEffect : FifoDir.read = unread.fifoDir ∧ FifoDir.write ≠ unread.fifoDir := by decide

theorem witness_FifoTrafficLaw :
    (full.fifo.length ≤ 16 ∧ full.status .fe = decide (full.fifo.length = 0)
      ∧ full.status .ff = decide (full.fifo.length = 16))
    ∧ State.reset.fifo.length ≤ 16 ∧ State.reset.status .fe = decide (State.reset.fifo.length = 0)
      ∧ State.reset.status .ff = decide (State.reset.fifo.length = 16) := by decide

theorem witness_StatusReadEffect : (event (.portRead 0) threePort).events = .portRead 0 :: [] := by decide

theorem witness_DataReadEffect :
    ((event (.portRead 1) unread).events = .portRead 1 :: [] ∧ readPortAt unread.cfg.portMap 1 = .data
      ∧ unread.fifoDir = .read ∧ unread.fifo = ⟨0#8, false⟩ :: unread.fifo.tail)
    ∧ ((event (.portRead 2) threePort).events = .portRead 2 :: [] ∧ readPortAt threePort.cfg.portMap 2 = .data
      ∧ threePort.fifoDir = .write ∧ threePort.cfg.openBus = .fixed 0xFF#8)
    ∧ ({ State.reset with fifoDir := .read } : State).fifo = []
    ∧ ({ Config.default with openBus := .free } : Config).openBus = .free := by decide

theorem witness_BadPortWriteIsLogged :
    (event (.portWrite 0 0x12#8) threePort).events = .portWrite 0 0x12#8 :: [] ∧ threePort.cfg.portMap = .threePort := by
  decide

theorem witness_WriteDiscardsUnreadResults :
    (cmd 0x6B#8 unread).events = .portWrite 1 0x6B#8 :: [] ∧ writePortAt unread.cfg.portMap 1 ≠ .ignored
      ∧ unread.fifoDir = .read := by decide

theorem witness_StepRunsDecodedCommand :
    ((cmd 0x6B#8 unread).WriteReady ∧ (cmd 0x6B#8 unread).events = .portWrite 1 0x6B#8 :: []
      ∧ writePortAt unread.cfg.portMap 1 = .command ∧ decode 0x6B#8 = .ok .start)
    ∧ (event (.portWrite 2 0x7F#8) threePort).WriteReady
      ∧ (event (.portWrite 2 0x7F#8) threePort).events = .portWrite 2 0x7F#8 :: []
      ∧ writePortAt threePort.cfg.portMap 2 = .command ∧ decode 0x7F#8 = .ok (.pram 15#4) := by decide

theorem witness_StepRunsParameterByte :
    let s := par 0x50#8 (awaiting .curs [0x34#8, 0x12#8, 0x03#8])
    s.WriteReady ∧ s.events = .portWrite 0 0x50#8 :: [] ∧ writePortAt s.cfg.portMap 0 = .parameter
      ∧ s.disp.phase = .await ∧ s.disp.cr = encode .curs ∧ s.disp.cmd = .command Instr.curs.mnemonic := by decide

theorem witness_UnknownCommandByteEffect :
    let s := cmd 0xFF#8 (awaiting .curs [0x34#8])
    s.WriteReady ∧ s.events = .portWrite 1 0xFF#8 :: [] ∧ writePortAt s.cfg.portMap 1 = .command
      ∧ decode 0xFF#8 = .error (.invalid 0xFF#8) := by decide

theorem witness_StrayParameterEffect :
    let s := par 0x55#8 unread
    s.WriteReady ∧ s.events = .portWrite 0 0x55#8 :: [] ∧ writePortAt s.cfg.portMap 0 = .parameter
      ∧ s.disp.phase = .idle := by decide

theorem witness_FixedArityCommandsApplyOnce :
    State.reset.WriteReady ∧ Instr.curs.arity = .fixed 4 ∧ ([] : List Byte).length < 4
      ∧ [0x34#8, 0x12#8, 0x03#8].length < 4 ∧ [0x34#8, 0x12#8, 0x03#8, 0x50#8].length = 4 := by decide

theorem witness_AbandonedCommandsAreLogged :
    unread.WriteReady ∧ Instr.reset.takes 7 = true ∧ Instr.reset.cutShort 7 = true ∧ Instr.reset.takes 8 = true
      ∧ Instr.reset.cutShort 8 = false ∧ Instr.reset.cutShort 0 = false
      ∧ (Instr.wdat .word .replace).takes 3 = true ∧ (Instr.wdat .word .replace).cutShort 3 = true
      ∧ Instr.figs.takes 10 = true ∧ Instr.figs.cutShort 10 = true ∧ Instr.figs.takes 11 = true
      ∧ Instr.figs.cutShort 11 = false := by decide

theorem witness_ResetCompletes :
    (atCount 0#4).disp.pcount = 0#4 ∧ (atCount 8#4).disp.pcount = 8#4
      ∧ ((atCount 7#4).disp.pcount ≠ 0#4 ∧ (atCount 7#4).disp.pcount ≠ 8#4) ∧ unread.WriteReady := by decide

theorem witness_SyncCompletes : (atCount 8#4).disp.pcount = 8#4 := by decide

theorem witness_CcharCompletes : (atCount 3#4).disp.pcount = 3#4 := by decide

theorem witness_ZoomPitchAndMaskComplete : (atCount 1#4).disp.pcount = 1#4 ∧ (atCount 2#4).disp.pcount = 2#4 := by decide

theorem witness_CursCompletes :
    (atCount 4#4).disp.pcount = 4#4 ∧ (atCount 0#4).disp.pcount = 0#4
      ∧ ((atCount 3#4).disp.pcount ≠ 0#4 ∧ (atCount 3#4).disp.pcount ≠ 4#4) := by decide

theorem witness_PramCompletes :
    (atCount 0#4).disp.pcount = 0#4
      ∧ (let s := { atCount 1#4 with disp := { (atCount 1#4).disp with raPtr := 15#5 } }
         s.disp.pcount ≠ 0#4 ∧ s.disp.raPtr.toNat ≤ 15)
      ∧ (let s := { atCount 1#4 with disp := { (atCount 1#4).disp with raPtr := 16#5 } }
         s.disp.pcount ≠ 0#4 ∧ 16 ≤ s.disp.raPtr.toNat) := by decide

theorem witness_PramStreamsIntoParameterRam : unread.WriteReady ∧ (small.WriteReady) := by decide

theorem witness_FigsCompletes :
    (atCount 0#4).disp.pcount = 0#4 ∧ (atCount 1#4).disp.pcount = 1#4 ∧ (atCount 3#4).disp.pcount = 3#4
      ∧ (atCount 5#4).disp.pcount = 5#4 ∧ (atCount 7#4).disp.pcount = 7#4 ∧ (atCount 9#4).disp.pcount = 9#4
      ∧ (atCount 11#4).disp.pcount = 11#4
      ∧ ((atCount 2#4).disp.pcount ≠ 0#4 ∧ (atCount 2#4).disp.pcount.toNat % 2 = 0)
      ∧ ((atCount 10#4).disp.pcount ≠ 0#4 ∧ (atCount 10#4).disp.pcount.toNat % 2 = 0) := by decide

theorem witness_AdvanceEadArithmetic :
    ((1#3).toNat = 1 ∧ (3#3).toNat = 3) ∧ ((5#3).toNat = 5 ∧ (7#3).toNat = 7)
      ∧ ((0#3).toNat ≠ 1 ∧ (0#3).toNat ≠ 2 ∧ (0#3).toNat ≠ 3 ∧ (0#3).toNat ≠ 5 ∧ (0#3).toNat ≠ 6 ∧ (0#3).toNat ≠ 7) := by
  decide

theorem witness_MaskStepsRightward :
    (⟨0x3FFFF#18, 15#4, 0xFFFF#16⟩ : AddrRegs).mask = 0xFFFF#16 ∧ (⟨0#18, 0#4, 0#16⟩ : AddrRegs).mask = 0#16
      ∧ (let a : AddrRegs := ⟨0x3FFFF#18, 15#4, 0x8000#16⟩
         a.mask = 1#16 <<< a.dad.toNat) := by decide

theorem witness_WdatCommandByte :
    (atCount 0#4).disp.pcount = 0#4 ∧ XferType.highByte ≠ .invalid
      ∧ ((atCount 1#4).disp.pcount = 1#4 ∧ (atCount 1#4).disp.xtype = .word) := by decide

theorem witness_WdatWritesMemory :
    (let s := atCount 2#4
     s.disp.xtype = .word ∧ s.disp.pcount = 2#4 ∧ (0#16 : Word) = BitVec.ofNat 16 (s.param 1#4 + 256 * s.param 2#4)
       ∧ (0xFFFF#16 : Word) = 0xFFFF#16)
    ∧ (let s := { atCount 1#4 with disp := { (atCount 1#4).disp with xtype := .lowByte } }
       s.disp.xtype = .lowByte ∧ s.disp.pcount = 1#4 ∧ (0#16 : Word) = BitVec.ofNat 16 (s.param 1#4)
         ∧ (0x00FF#16 : Word) = 0x00FF#16)
    ∧ (let s := { atCount 1#4 with disp := { (atCount 1#4).disp with xtype := .highByte } }
       s.disp.xtype = .highByte ∧ s.disp.pcount = 1#4 ∧ (0#16 : Word) = BitVec.ofNat 16 (256 * s.param 1#4)
         ∧ (0xFF00#16 : Word) = 0xFF00#16) := by decide

theorem witness_RdatCompletes :
    State.reset.fifoDir = .write ∧ XferType.invalid = .invalid ∧ XferType.word ≠ .invalid
      ∧ State.reset.cfg.rdatInvalid = .keepsDirection
      ∧ ({ Config.default with rdatInvalid := .turnsToRead } : Config).rdatInvalid = .turnsToRead := by decide

set_option maxRecDepth 8000 in
/-- RDAT at the 16-byte boundary: eight words fill the queue and log nothing, a ninth is dropped and logged. -/
theorem witness_RdatCompletes_boundary :
    let s (n : FigCount) : State := { State.reset with fig := { State.reset.fig with dc := n } }
    ((after (cmd 0xA0#8 (s 7#14))).fifo.length = 16 ∧ (after (cmd 0xA0#8 (s 7#14))).sr = 0x03#8
      ∧ (after (cmd 0xA0#8 (s 7#14))).out.log = [])
    ∧ (after (cmd 0xA0#8 (s 8#14))).fifo.length = 16
      ∧ (after (cmd 0xA0#8 (s 8#14))).out.log = [⟨.fifoOverflow, 0#8⟩, ⟨.fifoOverflow, 0#8⟩] := by decide

theorem witness_FigdCompletes :
    ({ State.reset with cfg := { Config.default with figdPolicy := .stub } } : State).cfg.figdPolicy = .stub
      ∧ State.reset.cfg.figdPolicy = .refuse := by decide

theorem witness_CurdCompletes : State.reset.fifoDir = .write ∧ State.reset.cfg.curdDadBytes = .two := by decide

theorem witness_LprdCompletes : State.reset.fifoDir = .write := by decide

theorem witness_EnvironmentInputs :
    (event .dmaEnd State.reset).events = .dmaEnd :: []
      ∧ (event (.lightPen 0x3FFFF#18) State.reset).events = .lightPen 0x3FFFF#18 :: []
      ∧ (event (.memStore 0x3FFFF#18 0xFFFF#16) State.reset).events = .memStore 0x3FFFF#18 0xFFFF#16 :: [] := by decide

theorem witness_CursReadsBackThroughCurd : unread.WriteReady ∧ unread.cfg.curdDadBytes = .two := by decide

theorem witness_WdatReadsBackThroughRdat : unread.WriteReady ∧ unread.fig.dc = 0#14 := by decide

theorem witness_WellFormedProgramsOnlyOverflow :
    (awaiting (.pram 0#4) []).WriteReady ∧ (awaiting (.pram 0#4) []).Settled
      ∧ ∀ c ∈ ([⟨.reset, []⟩, ⟨.zoom, [0x21#8]⟩, ⟨.figs, [2#8, 1#8, 0#8]⟩, ⟨.rdat .word .replace, []⟩] : List Command),
          c.wellFormed = true := by decide

/-- Every mode of the two mode bits, and the interlace code that doubles lines. -/
theorem witness_PartitionLayout :
    ((0 : Nat) < 4 ∧ (3 : Nat) < 4)
      ∧ [0x00#8, 0x02#8, 0x20#8, 0x22#8].map
          (fun m => ({ small with geom := { small.geom with mode := m } } : State).partitions) = [2, 2, 4, 0]
      ∧ [0x00#8, 0x01#8, 0x08#8, 0x09#8].map
          (fun m => ({ small with geom := { small.geom with mode := m } } : State).vRepeat) = [1, 1, 1, 2] := by decide

theorem witness_LineMakesOneCallPerCell :
    (0 / small.vRepeat < small.totalLines ∧ (small.linePixels 0).length = 4)
      ∧ ¬ 4 / small.vRepeat < small.totalLines
      ∧ displayMode ({ small.geom with mode := 0x22#8 } : Geometry).mode = .invalid := by decide

/-- The last cell of the last of four partitions, and a wide partition. -/
theorem witness_CellShowsItsMemoryWord :
    (3 < small.partitions ∧ partitionTop small.ra 3 ≤ 3 / small.vRepeat
      ∧ 3 / small.vRepeat < partitionTop small.ra (3 + 1) ∧ 3 < small.geom.aw.toNat)
    ∧ (let s := { small with ra := bankSet small.ra 3#4 0x80#8 }
       0 < s.partitions ∧ partitionTop s.ra 0 ≤ 0 / s.vRepeat ∧ 0 / s.vRepeat < partitionTop s.ra (0 + 1)
         ∧ 3 < s.geom.aw.toNat ∧ (partitionAt s.ra 0).wd = true) := by decide

/-- A blanked cell, and a cell reversed by the cursor. -/
theorem witness_BlankingAndCursorAttributes :
    small.cfg.rawAttr = .standard
      ∧ (({ small with de := false } : State).linePixels 0).map (fun p => p.vsp) = [true, true, true, true]
      ∧ (({ small with cursor := { small.cursor with dc := true, sc := true } } : State).linePixels 0).map (fun p => p.rvv)
          = [true, false, false, false]
      ∧ (0 < small.partitions ∧ partitionTop small.ra 0 ≤ 0 / small.vRepeat
          ∧ 0 / small.vRepeat < partitionTop small.ra (0 + 1) ∧ 0 < small.geom.aw.toNat ∧ 3 < small.geom.aw.toNat) := by
  decide

theorem witness_AttributePriority :
    (({ small with de := false } : State).linePixels 0).map (fun p => (p.vsp, p.lten, p.rvv))
      = List.replicate 4 (true, false, false) := by decide

theorem witness_FrameCallsAndRepeats :
    let s := { small with zoom := { small.zoom with disp := 2#5 } }
    2 / s.vRepeat = 3 / s.vRepeat ∧ (s.linePixels 2).length = 4 := by decide

theorem witness_RenderingIsReadOnly :
    ({ small with events := [.renderLine 0, .renderLine 0] } : State).events = .renderLine 0 :: .renderLine 0 :: []
      ∧ ({ small with events := [.renderFrame, .renderFrame] } : State).events = .renderFrame :: .renderFrame :: [] := by
  decide

/-- The first position of a field, and its last. -/
theorem witness_TickEntersPosition :
    ((event .tick small).events = .tick :: [] ∧ small.raster.vwait = false ∧ small.geom.Ok)
      ∧ (let s := event .tick { small with master := false, raster := { small.raster with hnext := 6#9, vnext := 4#11 } }
         s.events = .tick :: [] ∧ s.raster.vwait = false ∧ s.geom.Ok ∧ (after s).raster.vwait = true) := by decide

theorem witness_SlaveHoldsForExternalVsync :
    (let s := event .tick { small with master := false, raster := { small.raster with vwait := true } }
     s.events = .tick :: [] ∧ s.raster.vwait = true)
    ∧ (let s := event .extVsync { small with master := false }
       s.events = .extVsync :: [] ∧ s.master = false)
    ∧ (event .extVsync small).events = .extVsync :: [] ∧ (event .extVsync small).master = true := by decide

theorem witness_MasterFieldIsPeriodic :
    let s := { small with events := List.replicate 2 Event.tick ++ [] }
    s.events = List.replicate 2 Event.tick ++ [] ∧ s.master = true ∧ s.RasterOk ∧ s.geom.Ok := by decide

theorem witness_StepKeepsFifo : (cmd 0x6B#8 unread).FifoOk ∧ step (cmd 0x6B#8 unread) = .next (after (cmd 0x6B#8 unread)) :=
  ⟨by decide, rfl⟩

theorem witness_StepKeepsDispatcher :
    (par 0x50#8 (awaiting .curs [0x34#8, 0x12#8, 0x03#8])).disp.Ok
      ∧ (awaiting .curs [0x34#8, 0x12#8, 0x03#8]).disp.pr.length = (awaiting .curs [0x34#8, 0x12#8, 0x03#8]).cfg.prSize
      ∧ step (par 0x50#8 (awaiting .curs [0x34#8, 0x12#8, 0x03#8]))
          = .next (after (par 0x50#8 (awaiting .curs [0x34#8, 0x12#8, 0x03#8]))) := ⟨by decide, by decide, rfl⟩

theorem witness_StepKeepsRasterRegistersAndMemory :
    (event (.memStore 0x3FFFF#18 0xFFFF#16) small).RasterOk ∧ (event (.memStore 0x3FFFF#18 0xFFFF#16) small).RegsOk
      ∧ (event (.memStore 0x3FFFF#18 0xFFFF#16) small).MemOk
      ∧ step (event (.memStore 0x3FFFF#18 0xFFFF#16) small)
          = .next (after (event (.memStore 0x3FFFF#18 0xFFFF#16) small)) := ⟨by decide, by decide, by decide, rfl⟩

theorem witness_StepKeepsLines :
    (event .tick small).LinesOk ∧ step (event .tick small) = .next (after (event .tick small)) := ⟨by decide, rfl⟩

theorem witness_OutputsOnlyGrow :
    step (event .tick small) = .next (after (event .tick small)) ∧ (after (event .tick small)).out ≠ small.out :=
  ⟨rfl, by decide⟩

/-- Each register of the file changes in some write of a command the rules name (the step is `step_after`). -/
theorem witness_OnlyNamedCommandsWriteRegisters :
    (let s := par 0x28#8 (awaiting .pitch [])
     s.WriteReady ∧ (after s).pitch ≠ s.pitch)
    ∧ (let s := par 0x01#8 (awaiting (.sync true) (List.replicate 7 0#8))
       s.WriteReady ∧ (after s).geom ≠ s.geom ∧ (after s).de ≠ s.de)
    ∧ (let s := cmd 0x6E#8 unread
       s.WriteReady ∧ (after s).master ≠ s.master)
    ∧ (let s := par 0x7B#8 (awaiting .cchar [0x8F#8, 0x6D#8])
       s.WriteReady ∧ (after s).cursor ≠ s.cursor)
    ∧ (let s := par 0x21#8 (awaiting .zoom [])
       s.WriteReady ∧ (after s).zoom ≠ s.zoom)
    ∧ (let s := par 0x50#8 (awaiting .curs [0x34#8, 0x12#8, 0x03#8])
       s.WriteReady ∧ (after s).addr.ead ≠ s.addr.ead ∧ (after s).addr.dad ≠ s.addr.dad)
    ∧ (let s := par 0xF0#8 (awaiting .mask [0x0F#8])
       s.WriteReady ∧ (after s).addr.mask ≠ s.addr.mask) := by decide

/-- The rest of them: parameter RAM, transfer type, figure registers, memory, light-pen address. -/
theorem witness_OnlyNamedCommandsWriteRegisters_rest :
    (let s := par 0xAA#8 (awaiting (.pram 0#4) [])
     s.WriteReady ∧ (after s).ra ≠ s.ra ∧ (after s).disp.raPtr ≠ s.disp.raPtr)
    ∧ (let s := cmd 0x25#8 unread
       s.WriteReady ∧ ((after s).disp.xtype, (after s).disp.mod) ≠ (s.disp.xtype, s.disp.mod))
    ∧ (let s := par 0x12#8 (awaiting .figs [])
       s.WriteReady ∧ ((after s).fig.dir, (after s).fig.type, (after s).fig.gd) ≠ (s.fig.dir, s.fig.type, s.fig.gd))
    ∧ (let s := par 0x7F#8 (awaiting .figs [0x12#8, 0xFF#8])
       s.WriteReady ∧ (after s).fig.dc ≠ s.fig.dc)
    ∧ (let s := par 0x40#8 (awaiting .figs [5#8, 1#8, 0#8, 2#8, 0#8, 3#8, 0#8, 4#8, 0#8, 5#8])
       s.WriteReady ∧ ((after s).fig.d, (after s).fig.d2, (after s).fig.d1, (after s).fig.dm)
         ≠ (s.fig.d, s.fig.d2, s.fig.d1, s.fig.dm))
    ∧ (let s := par 0xFF#8 { awaiting (.wdat .word .replace) [0xFF#8] with addr := ⟨0#18, 0#4, 0xFFFF#16⟩ }
       s.WriteReady ∧ (after s).mem ≠ s.mem)
    ∧ (let s := event (.memStore 0#18 1#16) State.reset
       s.WriteReady ∧ (after s).mem ≠ s.mem)
    ∧ (let s := event (.lightPen 1#18) State.reset
       s.WriteReady ∧ (after s).lad ≠ s.lad) := by decide

/-- Each status bit and level that is not the FIFO's changes, by an event the rules name (the step is `step_after`). -/
theorem witness_OnlyNamedEventsMoveStatus :
    (let s := event .tick small
     s.WriteReady ∧ (after s).status .vsy ≠ s.status .vsy ∧ (after s).status .hbl ≠ s.status .hbl
       ∧ (after s).raster.hsyncLevel ≠ s.raster.hsyncLevel ∧ (after s).raster.blinkCtr ≠ s.raster.blinkCtr
       ∧ (after s).raster.hnext ≠ s.raster.hnext)
    ∧ (let s := cmd 0xA4#8 unread
       s.WriteReady ∧ (after s).status .dma ≠ s.status .dma ∧ (after s).drq ≠ s.drq)
    ∧ (let s := event .dmaEnd { State.reset with drq := true, sr := 0x14#8 }
       s.WriteReady ∧ (after s).status .dma ≠ s.status .dma ∧ (after s).drq ≠ s.drq)
    ∧ (let s := event (.lightPen 1#18) State.reset
       s.WriteReady ∧ (after s).status .lpd ≠ s.status .lpd)
    ∧ (let s := cmd 0xC0#8 { State.reset with sr := 0x84#8 }
       s.WriteReady ∧ (after s).status .lpd ≠ s.status .lpd) := by decide

end Sys2Proof.Tests
end

/-! ## The dispatcher's invariant (R16 to R18, R90 to R95) -/

namespace Sys2Proof.Machine

@[simp] theorem State.loadCommand_disp (s : State) (b : Byte) :
    (s.loadCommand b).disp =
      { s.disp with cr := b, cmd := cmdOf b, pcount := 0#4, pr := prLoad s.cfg.prSize b } := rfl

@[simp] theorem State.storeParam_disp (s : State) (b : Byte) :
    (s.storeParam b).disp =
      { s.disp with pcount := s.disp.pcount + 1#4, pr := prSet s.disp.pr (s.disp.pcount + 1#4) b } := rfl

@[simp] theorem instrOf_mnemonic (name : Mnemonic) (b : Byte) : (instrOf name b).mnemonic = name := by
  cases name <;> rfl

theorem cmdOf_ok {b : Byte} {i : Instr} (h : decode b = .ok i) : cmdOf b = .command i.mnemonic := by
  simp [cmdOf, h]

/-! ### How many parameter bytes end a command or a group of it -/

/-- The number of parameter bytes that ends a command, or one data unit of it, for the latched transfer type `x`;
0 where none may follow (R63, R93 to R95). -/
def paramQuota (name : Mnemonic) (x : XferType) : Nat :=
  match name with
  | .reset | .sync => 8
  | .cchar => 3
  | .zoom | .pitch | .pram => 1
  | .curs => 4
  | .mask => 2
  | .figs => 11
  | .wdat => if x = .invalid then 0 else (wdatGroup x).toNat
  | .vsync | .start | .bctrl | .rdat | .figd | .gchrd | .dmar | .dmaw | .curd | .lprd => 0

theorem paramQuota_le (name : Mnemonic) (x : XferType) : paramQuota name x ≤ 11 := by
  cases name <;> cases x <;> decide

/-- What may be in flight is a command that has not got its quota of parameter bytes. -/
theorem Dispatcher.inFlightOk_iff (d : Dispatcher) :
    d.inFlightOk = true ↔ ∃ name, d.cmd = .command name ∧ d.pcount.toNat < paramQuota name d.xtype := by
  unfold Dispatcher.inFlightOk
  cases hc : d.cmd with
  | none => simp
  | invalid => simp
  | command name => cases name <;> simp [paramQuota, apply_ite]

/-! ### What one run of a command's meaning does to the dispatcher -/

/-- From `s` to `t` nothing of the dispatcher and no parameter moved. -/
@[simp] def KeepsDispatcher (s t : State) : Prop := t.disp = s.disp ∧ t.cfg = s.cfg

/-- From `s` to `t` the command in flight and its parameter registers stayed, and the PRAM pointer within its range. -/
structure KeepsCommand (s t : State) : Prop where
  cfg   : t.cfg = s.cfg
  cr    : t.disp.cr = s.disp.cr
  cmd   : t.disp.cmd = s.disp.cmd
  pr    : t.disp.pr = s.disp.pr
  raPtr : s.disp.raPtr.toNat ≤ 16 → t.disp.raPtr.toNat ≤ 16

/-- What a run of the meaning of `i` does to the dispatcher: it keeps the command in flight, and awaits more bytes only
while the quota of `i` is not reached. -/
structure RunsCommand (i : Instr) (s t : State) : Prop extends KeepsCommand s t where
  await : s.disp.pcount.toNat ≤ paramQuota i.mnemonic s.disp.xtype → t.disp.phase = .await →
    t.disp.pcount.toNat < paramQuota i.mnemonic t.disp.xtype

theorem KeepsDispatcher.refl (s : State) : KeepsDispatcher s s := ⟨rfl, rfl⟩

theorem KeepsDispatcher.keepsCommand {s t : State} (h : KeepsDispatcher s t) : KeepsCommand s t := by
  obtain ⟨hd, hc⟩ := h
  exact ⟨hc, by rw [hd], by rw [hd], by rw [hd], by rw [hd]; exact id⟩

theorem KeepsCommand.setPhase {s t : State} (h : KeepsCommand s t) (p : Phase) : KeepsCommand s (t.setPhase p) :=
  ⟨h.cfg, h.cr, h.cmd, h.pr, h.raPtr⟩

theorem KeepsCommand.setPcount {s t : State} (h : KeepsCommand s t) (n : BitVec 4) : KeepsCommand s (t.setPcount n) :=
  ⟨h.cfg, h.cr, h.cmd, h.pr, h.raPtr⟩

theorem keepsCommand_latchXfer (s : State) (x : XferType) (m : ModMode) : KeepsCommand s (s.latchXfer x m) :=
  ⟨rfl, rfl, rfl, rfl, id⟩

/-- A state whose dispatcher is another's keeps the command as that one does. -/
theorem KeepsCommand.trans_same {s t u : State} (h : KeepsCommand s t) (h' : KeepsDispatcher t u) :
    KeepsCommand s u := by
  obtain ⟨hd, hc⟩ := h'
  exact ⟨hc.trans h.cfg, by rw [hd]; exact h.cr, by rw [hd]; exact h.cmd, by rw [hd]; exact h.pr,
    by rw [hd]; exact h.raPtr⟩

/-! The operations that latch a transfer type or move the PRAM pointer. -/

theorem keepsDispatcher_applyRdat (s : State) (x : XferType) (m : ModMode) :
    KeepsDispatcher (s.latchXfer x m) (s.applyRdat x m) := by
  unfold State.applyRdat
  dsimp only
  split <;> simp

theorem keepsDispatcher_applyDma (s : State) (x : XferType) (m : ModMode) :
    KeepsDispatcher (s.latchXfer x m) (s.applyDma x m) := by
  simp [State.applyDma]

/-- The PRAM pointer stops at 16 (R133). -/
theorem keepsCommand_applyPramByte (s : State) (v : Byte) : KeepsCommand s (s.applyPramByte v) := by
  unfold State.applyPramByte
  split
  · refine ⟨rfl, rfl, rfl, rfl, fun _ => ?_⟩
    show (s.disp.raPtr + 1#5).toNat ≤ 16
    bv_omega
  · exact (KeepsDispatcher.refl s).keepsCommand

/-! The shapes of a meaning. -/

theorem immediate_runsCommand {i : Instr} {apply : State → State} {s t : State} (ha : KeepsCommand s (apply s))
    (h : immediate apply s = .next t) : RunsCommand i s t := by
  cases h
  exact { ha.setPhase .idle with await := fun _ h => nomatch h }

/-- A meaning that awaits up to `n` parameter bytes and idles at the n-th: of what it does at the command byte, at
the n-th byte and between, only the phase is the dispatcher's. -/
theorem counted_runsCommand {i : Instr} {n : BitVec 4} {s t u v w : State}
    (hq : ∀ x, paramQuota i.mnemonic x = n.toNat) (hn : 0 < n.toNat)
    (hu : KeepsDispatcher s u) (hv : KeepsDispatcher s v) (hw : KeepsDispatcher s w)
    (h : (if s.disp.pcount = 0#4 then .next (u.setPhase .await)
      else if s.disp.pcount = n then .next (v.setPhase .idle) else .next w : Result State) = .next t) :
    RunsCommand i s t := by
  split_ifs at h with h0 hlast
  · cases h
    refine { hu.keepsCommand.setPhase .await with await := fun _ _ => ?_ }
    simpa [hq, hu.1, h0] using hn
  · cases h
    exact { hv.keepsCommand.setPhase .idle with await := fun _ h => nomatch h }
  · cases h
    refine { hw.keepsCommand with await := fun hle _ => ?_ }
    rw [hq] at hle ⊢
    rw [hw.1]
    exact Nat.lt_of_le_of_ne hle (fun e => hlast (BitVec.eq_of_toNat_eq e))

theorem fixedArity_runsCommand {i : Instr} {n : BitVec 4} {apply : State → State} {s t : State}
    (hq : ∀ x, paramQuota i.mnemonic x = n.toNat) (hn : 0 < n.toNat) (ha : KeepsDispatcher s (apply s))
    (h : fixedArity n apply s = .next t) : RunsCommand i s t :=
  counted_runsCommand hq hn (.refl s) ha (.refl s) h

theorem execPram_runsCommand {n : BitVec 4} {s t : State} (h : execPram n s = .next t) :
    RunsCommand (.pram n) s t := by
  unfold execPram at h
  split at h
  next h0 =>
    cases h
    refine ⟨⟨rfl, rfl, rfl, rfl, fun _ => ?_⟩, fun _ _ => ?_⟩
    · show (n.setWidth 5).toNat ≤ 16
      bv_omega
    · show s.disp.pcount.toNat < 1
      simp [h0]
  next =>
    cases h
    exact { (keepsCommand_applyPramByte s _).setPcount 0#4 with await := fun _ _ => Nat.one_pos }

/-- At its command byte WDAT awaits data unless the transfer type is invalid (R68, R155). -/
theorem startWdat_runsCommand {s : State} (x : XferType) (m : ModMode) (h0 : s.disp.pcount = 0#4) :
    RunsCommand (.wdat x m) s (s.startWdat x m) := by
  unfold State.startWdat
  split
  next => exact { (keepsCommand_latchXfer s x m).setPhase .idle with await := fun _ h => nomatch h }
  next hx =>
    refine { (keepsCommand_latchXfer s x m).setPhase .await with await := fun _ _ => ?_ }
    cases x <;> simp_all [paramQuota, wdatGroup, Instr.mnemonic]

theorem execWdat_runsCommand {x : XferType} {m : ModMode} {s t : State} (h : execWdat x m s = .next t) :
    RunsCommand (.wdat x m) s t := by
  have applied : KeepsDispatcher s s.applyWdat := by simp
  unfold execWdat at h
  split_ifs at h with h0 hunit
  · cases h
    exact startWdat_runsCommand x m h0
  all_goals
    -- A data byte has arrived, so by its quota the command has a valid transfer type.
    have hpos : s.disp.pcount.toNat ≠ 0 := fun e => h0 (BitVec.eq_of_toNat_eq e)
  · cases h
    refine { applied.keepsCommand.setPcount 0#4 with await := fun hle _ => ?_ }
    show 0 < paramQuota .wdat s.applyWdat.disp.xtype
    rw [applied.1]
    exact Nat.lt_of_lt_of_le (Nat.pos_of_ne_zero hpos) hle
  · cases h
    refine { (KeepsDispatcher.refl s).keepsCommand with await := fun hle _ => ?_ }
    refine Nat.lt_of_le_of_ne hle (fun e => ?_)
    by_cases hx : s.disp.xtype = .invalid
    · exact hpos (by simpa [Instr.mnemonic, paramQuota, hx] using e)
    · exact hunit (BitVec.eq_of_toNat_eq (by simpa [Instr.mnemonic, paramQuota, hx] using e))

/-- Every command's meaning runs as the dispatcher expects, whatever the state (R91 to R95). -/
theorem exec_runsCommand {i : Instr} {s t : State} (h : exec i s = .next t) : RunsCommand i s t := by
  cases i with
  | reset =>
    exact counted_runsCommand (n := 8#4) (u := s.applyReset) (v := s.applySync false) (w := s)
      (fun _ => rfl) (by decide) (by simp) (by simp) (.refl s) h
  | figs =>
    exact counted_runsCommand (n := 11#4) (u := s) (v := s.applyFigsGroup) (w := s.applyFigsGroup)
      (fun _ => rfl) (by decide) (.refl s) (by simp) (by simp) h
  | pram n => exact execPram_runsCommand h
  | wdat x m => exact execWdat_runsCommand h
  | sync f =>
    exact fixedArity_runsCommand (n := 8#4) (apply := fun s => s.applySync f) (fun _ => rfl) (by decide) (by simp) h
  | cchar | zoom | pitch | curs | mask =>
    exact fixedArity_runsCommand (fun _ => rfl) (by decide) (by simp) h
  | rdat x m =>
    exact immediate_runsCommand (apply := fun s => s.applyRdat x m)
      ((keepsCommand_latchXfer s x m).trans_same (keepsDispatcher_applyRdat s x m)) h
  | dmar x m | dmaw x m =>
    exact immediate_runsCommand (apply := fun s => s.applyDma x m)
      ((keepsCommand_latchXfer s x m).trans_same (keepsDispatcher_applyDma s x m)) h
  | vsync f =>
    exact immediate_runsCommand (apply := fun s => s.applyVsync f) (KeepsDispatcher.keepsCommand (by simp)) h
  | start =>
    exact immediate_runsCommand (apply := fun s => s.setDisplayEnable true) (KeepsDispatcher.keepsCommand (by simp)) h
  | bctrl f =>
    exact immediate_runsCommand (apply := fun s => s.setDisplayEnable f) (KeepsDispatcher.keepsCommand (by simp)) h
  | figd | gchrd | curd | lprd =>
    exact immediate_runsCommand (KeepsDispatcher.keepsCommand (by simp)) h

/-- A command that runs within its quota leaves in flight what may be in flight. -/
theorem RunsCommand.inFlightOk {i : Instr} {s t : State} (h : RunsCommand i s t)
    (hc : s.disp.cmd = .command i.mnemonic) (hq : s.disp.pcount.toNat ≤ paramQuota i.mnemonic s.disp.xtype)
    (hp : t.disp.phase = .await) : t.disp.inFlightOk = true :=
  t.disp.inFlightOk_iff.mpr ⟨i.mnemonic, h.cmd.trans hc, h.await hq hp⟩

/-! ### Dispatched bytes -/

/-- A command byte leaves a dispatcher that satisfies its invariant (R91, R97). -/
theorem dispatchCommand_keeps_ok {b : Byte} {s t : State} (hs : s.disp.Ok) (h : dispatchCommand b s = .next t) :
    t.disp.Ok := by
  obtain ⟨-, -, hptr, -⟩ := hs
  unfold dispatchCommand at h
  dsimp only at h
  cases hd : decode b with
  | error e =>
    rw [hd] at h
    cases h
    refine ⟨.inr rfl, ?_, ?_, fun hp => nomatch hp⟩
    · simp [prGet_prLoad]
    · simpa using hptr
  | ok i =>
    rw [hd] at h
    have run := exec_runsCommand h
    refine ⟨.inr ?_, ?_, run.raPtr (by simpa using hptr), run.inFlightOk ?_ ?_⟩
    · rw [run.cmd, run.cr]; rfl
    · rw [run.pr, run.cr]; simp [prGet_prLoad]
    · exact cmdOf_ok hd
    · exact Nat.zero_le _

/-- A parameter byte keeps the dispatcher's invariant: in AWAIT there is a command that lacks parameters, so the byte is
stored past `pr[0]` and within the command's quota (R92, R98). -/
theorem dispatchParam_keeps_ok {b : Byte} {s t : State} (hs : s.disp.Ok) (h : dispatchParam b s = .next t) :
    t.disp.Ok := by
  unfold dispatchParam at h
  cases hphase : s.disp.phase with
  | idle =>
    rw [hphase] at h
    cases h
    exact hs
  | await =>
    obtain ⟨hcmd, hcr, hptr, hflight⟩ := hs
    obtain ⟨name, hname, hlt⟩ := s.disp.inFlightOk_iff.mp (hflight hphase)
    have hle := paramQuota_le name s.disp.xtype
    have hnext : (s.disp.pcount + 1#4).toNat = s.disp.pcount.toNat + 1 := by bv_omega
    have hpr0 : (0#4 : BitVec 4) ≠ s.disp.pcount + 1#4 := fun e => by
      rw [← e] at hnext
      exact Nat.succ_ne_zero _ hnext.symm
    rw [hphase] at h
    simp only [hname] at h
    have run := exec_runsCommand h
    refine ⟨?_, ?_, run.raPtr hptr, run.inFlightOk ?_ ?_⟩
    · rw [run.cmd, run.cr]; exact hcmd
    · rw [run.pr, run.cr]; exact (prGet_prSet_ne _ b hpr0).trans hcr
    · simpa using hname
    · simpa [hnext] using hlt

theorem dispatchEntry_keeps_ok {e : FifoEntry} {s t : State} (hs : s.disp.Ok) (h : dispatchEntry e s = .next t) :
    t.disp.Ok := by
  unfold dispatchEntry at h
  split at h
  · exact dispatchCommand_keeps_ok hs h
  · exact dispatchParam_keeps_ok hs h

/-- A command byte loads `PR_SIZE` registers and a parameter byte stores into one of them (R91, R92). -/
theorem dispatchEntry_keeps_prSize {e : FifoEntry} {s t : State} (hs : s.disp.pr.length = s.cfg.prSize)
    (h : dispatchEntry e s = .next t) : t.disp.pr.length = t.cfg.prSize := by
  have ran {i : Instr} {u : State} (hu : u.disp.pr.length = u.cfg.prSize) (h : exec i u = .next t) :
      t.disp.pr.length = t.cfg.prSize := by
    have run := exec_runsCommand h
    rw [run.pr, run.cfg, hu]
  have stored : (s.storeParam e.byte).disp.pr.length = (s.storeParam e.byte).cfg.prSize := by simpa using hs
  unfold dispatchEntry dispatchCommand dispatchParam at h
  dsimp only at h
  split at h
  · split at h
    · exact ran (by simp) h
    · cases h
      simp
  · split at h
    · cases h
      exact hs
    · split at h
      · exact ran stored h
      · cases h
        exact stored
      · cases h
        exact stored

/-! ### Steps -/

/-- What every dispatched byte keeps of the dispatcher and the parameters, every step keeps: no event but a port write
moves either, and the FIFO's operations do not (R8, R80 to R88). -/
theorem step_keeps_dispatcher {P : Dispatcher → Config → Prop}
    (hd : ∀ e s t, P s.disp s.cfg → dispatchEntry e s = .next t → P t.disp t.cfg)
    {s t : State} (hs : P s.disp s.cfg) (h : step s = .next t) : P t.disp t.cfg := by
  have accepted {b : Byte} {c : Bool} {u : State} (hu : P u.disp u.cfg) (h : acceptByte b c u = .next t) :
      P t.disp t.cfg :=
    acceptByte_keeps (P := fun s => P s.disp s.cfg) (fun s d hs => by simpa using hs)
      (fun s b c hs => by simpa using hs) (fun s e q _ hs => hs) hd hu h
  have unmoved {u : State} (hu : KeepsDispatcher s u) (h : Host.Outcome.next u = (.next t : Result State)) :
      P t.disp t.cfg := by
    cases h
    rw [hu.1, hu.2]
    exact hs
  cases hev : s.events with
  | nil =>
    rw [step_idle hev] at h
    exact unmoved (.refl s) h
  | cons e rest =>
    rw [step_cons hev] at h
    cases e with
    | portWrite offset b =>
      simp only [handleEvent, portWrite] at h
      split at h
      · exact accepted (u := { s with events := rest }) hs h
      · exact accepted (u := { s with events := rest }) hs h
      · exact unmoved (by simp) h
    | portRead offset =>
      refine unmoved ?_ h
      unfold portRead
      split <;> simp
    | tick | renderLine y | renderFrame | extVsync | lightPen a | dmaEnd | memStore a v =>
      exact unmoved (by simp) h

/-- Settles O53: every dispatched byte keeps the dispatcher's invariant and the number of parameter registers, so every
step does. -/
theorem stepKeepsDispatcher : Obligations.StepKeepsDispatcher := by
  intro s t h
  exact ⟨fun hs => step_keeps_dispatcher (P := fun d _ => d.Ok) (fun _ _ _ => dispatchEntry_keeps_ok) hs h,
    fun hs => step_keeps_dispatcher (P := fun d c => d.pr.length = c.prSize)
      (fun _ _ _ => dispatchEntry_keeps_prSize) hs h⟩

end Sys2Proof.Machine

/-! ## What a step can do to the state (R8, R85 to R98) -/

namespace Sys2Proof.Machine

/-! ### The dispatcher's bookkeeping (R91, R92) -/

/-- From `s` to `u` only log entries were added and the dispatcher moved, but for its PRAM pointer and its latched
transfer type and mode. -/
def Booked (s u : State) : Prop :=
  ∃ d l, u = { s with disp := d, out := { s.out with log := s.out.log ++ l } }
    ∧ d.raPtr = s.disp.raPtr ∧ d.xtype = s.disp.xtype ∧ d.mod = s.disp.mod

theorem Booked.trans {s u v : State} (h : Booked s u) (h' : Booked u v) : Booked s v := by
  obtain ⟨d, l, rfl, hptr, hx, hm⟩ := h
  obtain ⟨d', l', rfl, hptr', hx', hm'⟩ := h'
  exact ⟨d', l ++ l', by simp, hptr'.trans hptr, hx'.trans hx, hm'.trans hm⟩

/-- A change of the dispatcher alone is bookkeeping where it spares those three fields. -/
theorem booked_disp (s : State) {d : Dispatcher} (hptr : d.raPtr = s.disp.raPtr) (hx : d.xtype = s.disp.xtype)
    (hm : d.mod = s.disp.mod) : Booked s { s with disp := d } :=
  ⟨d, [], by simp, hptr, hx, hm⟩

theorem Booked.refl (s : State) : Booked s s := booked_disp s rfl rfl rfl

theorem booked_setPhase (s : State) (p : Phase) : Booked s (s.setPhase p) := booked_disp s rfl rfl rfl

theorem booked_setPcount (s : State) (n : BitVec 4) : Booked s (s.setPcount n) := booked_disp s rfl rfl rfl

theorem booked_storeParam (s : State) (b : Byte) : Booked s (s.storeParam b) := booked_disp s rfl rfl rfl

theorem booked_raiseLog (s : State) (c : LogCode) (b : Byte) : Booked s (s.raiseLog c b) :=
  ⟨s.disp, [⟨c, b⟩], rfl, rfl, rfl, rfl⟩

theorem booked_loadCommand (s : State) (b : Byte) : Booked s (s.logUnderrun.loadCommand b) := by
  have logged : Booked s s.logUnderrun := by
    unfold State.logUnderrun
    split
    · exact booked_raiseLog _ _ _
    · exact .refl s
  exact logged.trans (booked_disp _ rfl rfl rfl)

/-! ### Runs of a meaning -/

/-- What the meaning of a command can apply to the state, beside the dispatcher's phase and parameter count, at its
command byte or at one of its parameter bytes (R110 to R182). -/
def effectsOf : Instr → List (State → State)
  | .reset    => [State.applyReset, fun s => s.applySync false]
  | .sync f   => [fun s => s.applySync f]
  | .vsync f  => [fun s => s.applyVsync f]
  | .cchar    => [State.applyCchar]
  | .start    => [fun s => s.setDisplayEnable true]
  | .bctrl f  => [fun s => s.setDisplayEnable f]
  | .zoom     => [State.applyZoom]
  | .pitch    => [State.applyPitch]
  | .curs     => [State.applyCurs]
  | .pram n   => [fun s => s.startPram n, fun s => s.applyPramByte (s.disp.par s.disp.pcount)]
  | .mask     => [State.applyMask]
  | .figs     => [State.applyFigsGroup]
  | .wdat x m => [fun s => s.startWdat x m, State.applyWdat]
  | .rdat x m => [fun s => s.applyRdat x m]
  | .figd     => [State.applyFigd]
  | .gchrd    => [State.applyGchrd]
  | .dmar x m => [fun s => s.applyDma x m]
  | .dmaw x m => [fun s => s.applyDma x m]
  | .curd     => [State.applyCurd]
  | .lprd     => [State.applyLprd]

theorem immediate_effect {apply : State → State} {s t : State} (h : immediate apply s = .next t) :
    Booked (apply s) t := by
  cases h
  exact booked_setPhase _ _

theorem fixedArity_effect {n : BitVec 4} {apply : State → State} {s t : State} (h : fixedArity n apply s = .next t) :
    Booked s t ∨ Booked (apply s) t := by
  unfold fixedArity at h
  split_ifs at h <;> cases h
  · exact .inl (booked_setPhase _ _)
  · exact .inr (booked_setPhase _ _)
  · exact .inl (.refl s)

/-- A run of a command's meaning applies nothing or one of its effects, and moves the phase and the count. -/
theorem exec_effect {i : Instr} {s t : State} (h : exec i s = .next t) :
    Booked s t ∨ ∃ apply ∈ effectsOf i, Booked (apply s) t := by
  have fixed {n : BitVec 4} {apply : State → State} (he : effectsOf i = [apply]) (h : fixedArity n apply s = .next t) :
      Booked s t ∨ ∃ apply ∈ effectsOf i, Booked (apply s) t :=
    (fixedArity_effect h).imp_right fun hp => ⟨apply, by simp [he], hp⟩
  have once {apply : State → State} (he : effectsOf i = [apply]) (h : immediate apply s = .next t) :
      Booked s t ∨ ∃ apply ∈ effectsOf i, Booked (apply s) t :=
    .inr ⟨apply, by simp [he], immediate_effect h⟩
  cases i with
  | sync _ | cchar | zoom | pitch | curs | mask => exact fixed rfl h
  | vsync _ | start | bctrl _ | rdat _ _ | figd | gchrd | dmar _ _ | dmaw _ _ | curd | lprd => exact once rfl h
  | reset =>
    simp only [exec, execReset] at h
    split_ifs at h <;> cases h
    · exact .inr ⟨State.applyReset, by simp [effectsOf], booked_setPhase _ _⟩
    · exact .inr ⟨fun s => s.applySync false, by simp [effectsOf], booked_setPhase _ _⟩
    · exact .inl (.refl s)
  | pram n =>
    simp only [exec, execPram] at h
    split_ifs at h <;> cases h
    · exact .inr ⟨fun s => s.startPram n, by simp [effectsOf], booked_setPhase _ _⟩
    · exact .inr ⟨fun s => s.applyPramByte (s.disp.par s.disp.pcount), by simp [effectsOf], booked_setPcount _ _⟩
  | figs =>
    simp only [exec, execFigs] at h
    split_ifs at h <;> cases h
    · exact .inl (booked_setPhase _ _)
    · exact .inr ⟨State.applyFigsGroup, by simp [effectsOf], booked_setPhase _ _⟩
    · exact .inr ⟨State.applyFigsGroup, by simp [effectsOf], .refl _⟩
  | wdat x m =>
    simp only [exec, execWdat] at h
    split_ifs at h <;> cases h
    · exact .inr ⟨fun s => s.startWdat x m, by simp [effectsOf], .refl _⟩
    · exact .inr ⟨State.applyWdat, by simp [effectsOf], booked_setPcount _ _⟩
    · exact .inl (.refl s)

/-- What bookkeeping keeps, and holds of the state a meaning runs in and after each of its effects, holds after the
run. -/
theorem exec_keeps {P : State → Prop} {i : Instr} {s t : State} (hb : ∀ u v, Booked u v → P u → P v)
    (he : ∀ apply ∈ effectsOf i, P (apply s)) (hs : P s) (h : exec i s = .next t) : P t := by
  obtain hk | ⟨apply, ha, hk⟩ := exec_effect h
  · exact hb _ _ hk hs
  · exact hb _ _ hk (he apply ha)

/-! ### Dispatched bytes (R91, R92) -/

/-- From `s` to `t` there was bookkeeping, and then at most one run of the meaning of the command in flight. -/
def Dispatches (s t : State) : Prop :=
  Booked s t ∨ ∃ i u, Booked s u ∧ u.disp.cmd = .command i.mnemonic ∧ exec i u = .next t

/-- A dequeued entry is recorded, and runs the meaning of its command or of the command it is a parameter of. -/
theorem dispatchEntry_dispatches {e : FifoEntry} {s t : State} (h : dispatchEntry e s = .next t) : Dispatches s t := by
  unfold dispatchEntry at h
  split at h
  · unfold dispatchCommand at h
    dsimp only at h
    split at h
    next i hdec => exact .inr ⟨i, _, booked_loadCommand s e.byte, cmdOf_ok hdec, h⟩
    next =>
      cases h
      exact .inl (((booked_loadCommand s e.byte).trans (booked_raiseLog _ _ _)).trans (booked_setPhase _ _))
  · unfold dispatchParam at h
    split at h
    next =>
      cases h
      exact .inl (booked_raiseLog _ _ _)
    next =>
      split at h
      next name hname => exact .inr ⟨_, _, booked_storeParam s e.byte, by simpa using hname, h⟩
      all_goals
        cases h
        exact .inl (booked_storeParam s e.byte)

/-- What bookkeeping and every effect keep, a dispatched byte keeps. -/
theorem Dispatches.keeps {P : State → Prop} {s t : State} (hb : ∀ u v, Booked u v → P u → P v)
    (he : ∀ i u, P u → ∀ apply ∈ effectsOf i, P (apply u)) (hs : P s) (h : Dispatches s t) : P t := by
  obtain hk | ⟨i, u, hk, -, hrun⟩ := h
  · exact hb _ _ hk hs
  · have hu := hb _ _ hk hs
    exact exec_keeps hb (he i u hu) hu hrun

/-! ### Port writes (R85, R86) and steps (R8) -/

/-- The state in which a port write between two events dispatches its byte: a cleared queue in WRITE direction. -/
def State.emptied (s : State) : State := { s with fifo := [], fifoDir := .write, sr := statusCleared s.sr }

/-- A port write into an empty queue logs a bad port, or dispatches its own byte. -/
theorem portWrite_cases {offset : Nat} {b : Byte} {s t : State} (hs : s.WriteReady)
    (h : portWrite offset b s = .next t) : Booked s t ∨ Dispatches s.emptied t := by
  unfold portWrite at h
  split at h
  · rw [acceptByte_eq hs] at h
    exact .inr (dispatchEntry_dispatches h)
  · rw [acceptByte_eq hs] at h
    exact .inr (dispatchEntry_dispatches h)
  · cases h
    exact .inl (booked_raiseLog _ _ _)

/-- A step changes nothing, with no event pending, or is the next event, whole (R8, R269). -/
theorem step_cases {s t : State} (h : step s = .next t) :
    (s.events = [] ∧ t = s) ∨ ∃ e rest, s.events = e :: rest ∧ handleEvent e { s with events := rest } = .next t := by
  cases hev : s.events with
  | nil =>
    rw [step_idle hev] at h
    cases h
    exact .inl ⟨rfl, rfl⟩
  | cons e rest =>
    rw [step_cons hev] at h
    exact .inr ⟨e, rest, rfl, h⟩

end Sys2Proof.Machine

/-! ## The FIFO's invariant (R11 to R14, R80 to R88) -/

namespace Sys2Proof.Machine

/-- The FIFO's invariant speaks of the queue, its direction and its three status bits only. -/
theorem State.FifoOk.congr {s t : State} (hs : s.FifoOk) (hf : t.fifo = s.fifo) (hd : t.fifoDir = s.fifoDir)
    (hfe : t.status .fe = s.status .fe) (hff : t.status .ff = s.status .ff) (hdr : t.status .dr = s.status .dr) :
    t.FifoOk := by
  simpa only [State.FifoOk, hf, hd, hfe, hff, hdr] using hs

theorem State.FifoOk.of_untouched {s t : State} (hs : s.FifoOk) (hf : t.fifo = s.fifo) (hd : t.fifoDir = s.fifoDir)
    (hsr : t.sr = s.sr) : t.FifoOk := by
  simpa only [State.FifoOk, State.status, hf, hd, hsr] using hs

theorem Booked.fifoOk {s u : State} (h : Booked s u) (hs : s.FifoOk) : u.FifoOk := by
  obtain ⟨d, l, rfl, -⟩ := h
  exact hs

theorem State.FifoOk.setStatus {s : State} (hs : s.FifoOk) {b : StatusBit} (v : Bool) (hfe : b ≠ .fe) (hff : b ≠ .ff)
    (hdr : b ≠ .dr) : (s.setStatus b v).FifoOk :=
  hs.congr rfl rfl (by simp [hfe.symm]) (by simp [hff.symm]) (by simp [hdr.symm])

/-- A cleared queue is consistent in either direction (R83). -/
theorem fifoOk_of_cleared {s : State} {sr : Byte} (hf : s.fifo = []) (hsr : s.sr = statusCleared sr) : s.FifoOk := by
  simp [State.FifoOk, State.status, hf, hsr, statusGet_cleared, fifoDepth]

theorem State.FifoOk.setDirection {s : State} (hs : s.FifoOk) (d : FifoDir) : (s.setDirection d).FifoOk := by
  by_cases h : s.fifoDir = d
  · rwa [State.setDirection_same h]
  · rw [State.setDirection_switch h]
    exact fifoOk_of_cleared rfl rfl

/-- A result byte queued in READ direction keeps the queue consistent: a full queue drops it (R80). -/
theorem State.FifoOk.enqueue {s : State} (hs : s.FifoOk) (hd : s.fifoDir = .read) (b : Byte) :
    (s.enqueue b false).FifoOk := by
  obtain ⟨hle, hfe, hff, hdr, hw, hc⟩ := hs
  rcases s.enqueue_cases b false with ⟨-, e⟩ | ⟨hne, e⟩ <;> rw [e]
  · exact ⟨hle, hfe, hff, hdr, hw, hc⟩
  · have hlt : s.fifo.length < fifoDepth := Nat.lt_of_le_of_ne hle hne
    have hff' : s.status .ff = false := by simp [hff, hne]
    refine ⟨by simpa using hlt, ?_, ?_, ?_, fun h => (nomatch hd.symm.trans h), fun x hx => ?_⟩
    · simp [State.status, statusGet_afterEnqueue]
    · rw [State.status] at hff' ⊢
      simp [statusGet_afterEnqueue, hff']
    · simp [State.status, statusGet_afterEnqueue, hd]
    · rcases List.mem_append.mp hx with hx | hx
      · exact hc x hx
      · rw [List.mem_singleton.mp hx]

/-- A data read's dequeue from a READ queue keeps it consistent (R81, R88). -/
theorem State.FifoOk.dequeue {s t : State} {e : FifoEntry} (hs : s.FifoOk) (hd : s.fifoDir = .read)
    (h : s.dequeue = some (e, t)) : t.FifoOk := by
  obtain ⟨q, hq, rfl⟩ := State.dequeue_some h
  obtain ⟨hle, hfe, hff, hdr, -, hc⟩ := hs
  rw [hq] at hle hfe hdr hc
  rw [State.status] at hfe hdr
  have hlt : q.length < fifoDepth := hle
  refine ⟨Nat.le_of_lt hlt, ?_, ?_, ?_, fun h => (nomatch hd.symm.trans h),
    fun x hx => hc x (List.mem_cons_of_mem _ hx)⟩
  · simp [State.status, statusGet_afterDequeue, hfe]
  · simp [State.status, statusGet_afterDequeue, Nat.ne_of_lt hlt]
  · simp [State.status, statusGet_afterDequeue, hdr, hd, Nat.pos_iff_ne_zero]

/-! ### The commands that queue results (R158, R180, R182) -/

/-- Queued result bytes keep a READ queue consistent, however many overflow. -/
theorem State.FifoOk.enqueueResults {s : State} (hs : s.FifoOk) (hd : s.fifoDir = .read) (bs : List Byte) :
    (s.enqueueResults bs).FifoOk := by
  induction bs generalizing s with
  | nil => exact hs
  | cons b bs ih => exact ih (hs.enqueue hd b) (by simpa using hd)

/-- What RDAT, CURD and LPRD share: the FIFO turns to READ and result bytes are queued. -/
theorem State.FifoOk.readBack {s : State} (hs : s.FifoOk) (bs : List Byte) :
    ((s.setDirection .read).enqueueResults bs).FifoOk :=
  (hs.setDirection .read).enqueueResults (s.setDirection_fifoDir .read) bs

theorem State.FifoOk.applyRdat {s : State} (hs : s.FifoOk) (x : XferType) (m : ModMode) : (s.applyRdat x m).FifoOk := by
  have turned : (s.latchXfer x m).turnForInvalid.FifoOk := by
    unfold State.turnForInvalid
    split
    · exact hs
    · exact State.FifoOk.setDirection (s := s.latchXfer x m) hs .read
  unfold State.applyRdat
  dsimp only
  split
  · exact turned
  · rw [State.readOutN_eq]
    exact State.FifoOk.readBack (s := s.latchXfer x m) hs _

theorem State.FifoOk.applyDma {s : State} (hs : s.FifoOk) (x : XferType) (m : ModMode) : (s.applyDma x m).FifoOk := by
  have latched : ((s.latchXfer x m).setStatus .dma true).FifoOk :=
    State.FifoOk.setStatus (s := s.latchXfer x m) hs true (by decide) (by decide) (by decide)
  exact latched.of_untouched (by simp [State.applyDma]) (by simp [State.applyDma]) (by simp [State.applyDma])

/-- Every effect of every command keeps the FIFO's invariant: but for RDAT, CURD and LPRD none touches the queue. -/
theorem effect_keeps_fifoOk {i : Instr} {s : State} (hs : s.FifoOk) : ∀ apply ∈ effectsOf i, (apply s).FifoOk := by
  cases i with
  | rdat x m => exact List.forall_mem_singleton.mpr (hs.applyRdat x m)
  | curd => exact List.forall_mem_singleton.mpr (hs.readBack _)
  | lprd =>
    exact List.forall_mem_singleton.mpr
      ((hs.readBack _).setStatus (b := .lpd) false (by decide) (by decide) (by decide))
  | dmar x m | dmaw x m => exact List.forall_mem_singleton.mpr (hs.applyDma x m)
  | reset | pram _ | wdat _ _ =>
    exact List.forall_mem_cons.mpr ⟨hs.of_untouched (by simp) (by simp) (by simp),
      List.forall_mem_singleton.mpr (hs.of_untouched (by simp) (by simp) (by simp))⟩
  | _ => exact List.forall_mem_singleton.mpr (hs.of_untouched (by simp) (by simp) (by simp))

/-! ### Events -/

theorem State.FifoOk.emptied (s : State) : s.emptied.FifoOk := fifoOk_of_cleared rfl rfl

theorem State.FifoOk.dmaEnd {s : State} (hs : s.FifoOk) : s.dmaEnd.FifoOk := by
  have ended : (s.setStatus .dma false).FifoOk := hs.setStatus false (by decide) (by decide) (by decide)
  unfold State.dmaEnd
  dsimp only
  split <;> exact ended

theorem State.FifoOk.portRead {s : State} (hs : s.FifoOk) (offset : Nat) : (portRead offset s).FifoOk := by
  unfold Machine.portRead
  split
  · exact hs
  · unfold State.dataRead
    split
    next e u hd hq => exact (State.FifoOk.dequeue hs hd hq).of_untouched rfl rfl rfl
    next => exact hs.of_untouched (by simp) (by simp) (by simp)

/-- The tick moves of the status register only VSYNC and HBLANK. -/
theorem State.status_tick_other {s : State} {b : StatusBit} (hv : b ≠ .vsy) (hh : b ≠ .hbl) :
    s.tick.status b = s.status b := by
  have vsync (u : State) (n : Bool) : (u.updateVsync n).status b = u.status b := by
    unfold State.updateVsync
    split
    · exact (u.status_setStatus .vsy b n).trans (if_neg hv)
    · rfl
  have blank (u : State) (n : Bool) : (u.updateBlank n).status b = u.status b := by
    unfold State.updateBlank
    split
    · exact (u.status_setStatus .hbl b n).trans (if_neg hh)
    · rfl
  have hsync (u : State) (n : Bool) : (u.updateHsync n).status b = u.status b := by simp [State.status]
  unfold State.tick State.enterPosition
  split
  · rfl
  · show ((if _ then s.countField else s).updateLevels _ _).status b = _
    rw [State.updateLevels, blank, hsync, vsync]
    split <;> rfl

theorem State.FifoOk.writeReady {s : State} (hs : s.FifoOk) : s.WriteReady := by
  obtain ⟨-, -, -, -, hw, -⟩ := hs
  exact hw

/-- Settles O52: a port write dispatches its byte from a cleared queue, and from then on only result bytes are queued;
of the other events only a data read touches the queue. -/
theorem stepKeepsFifo : Obligations.StepKeepsFifo := by
  intro s t hs h
  obtain ⟨-, rfl⟩ | ⟨e, rest, -, h⟩ := step_cases h
  · exact hs
  have hu : State.FifoOk { s with events := rest } := hs
  cases e with
  | portWrite offset b =>
    obtain hk | hk := portWrite_cases hu.writeReady h
    · exact hk.fifoOk hu
    · exact hk.keeps (fun _ _ => Booked.fifoOk) (fun _ _ => effect_keeps_fifoOk) (.emptied _)
  | portRead offset =>
    cases h
    exact hu.portRead offset
  | tick =>
    cases h
    exact hu.congr (by simp) (by simp) (State.status_tick_other (by decide) (by decide))
      (State.status_tick_other (by decide) (by decide)) (State.status_tick_other (by decide) (by decide))
  | lightPen a =>
    cases h
    exact State.FifoOk.setStatus (s := { s with events := rest, lad := a }) hs true (by decide) (by decide) (by decide)
  | dmaEnd =>
    cases h
    exact hu.dmaEnd
  | renderLine y | renderFrame | extVsync | memStore a v =>
    cases h
    exact hu.of_untouched (by simp) (by simp) (by simp)

end Sys2Proof.Machine

/-! ## Which commands and events move which field (R13, R20 to R29) -/

namespace Sys2Proof.Machine

/-! ### The fields and their writers -/

/-- The fields of the register file, the memories, and the status bits and levels that are not the FIFO's. -/
inductive StateField where
  | geom | pitch | de | master | cursor | zoom
  | ead | dad | mask
  | ra | raPtr
  | xfer
  | figShape | figRepeat | figSteps
  | mem | lad
  | vsy | hbl | hsync | blink
  | dma | drq | lpd | dip
  | position

/-- From `s` to `t` the field stayed. -/
def StateField.Kept (s t : State) : StateField → Prop
  | .geom      => t.geom = s.geom
  | .pitch     => t.pitch = s.pitch
  | .de        => t.de = s.de
  | .master    => t.master = s.master
  | .cursor    => t.cursor = s.cursor
  | .zoom      => t.zoom = s.zoom
  | .ead       => t.addr.ead = s.addr.ead
  | .dad       => t.addr.dad = s.addr.dad
  | .mask      => t.addr.mask = s.addr.mask
  | .ra        => t.ra = s.ra
  | .raPtr     => t.disp.raPtr = s.disp.raPtr
  | .xfer      => (t.disp.xtype, t.disp.mod) = (s.disp.xtype, s.disp.mod)
  | .figShape  => (t.fig.dir, t.fig.type, t.fig.gd) = (s.fig.dir, s.fig.type, s.fig.gd)
  | .figRepeat => t.fig.dc = s.fig.dc
  | .figSteps  => (t.fig.d, t.fig.d2, t.fig.d1, t.fig.dm) = (s.fig.d, s.fig.d2, s.fig.d1, s.fig.dm)
  | .mem       => t.mem = s.mem
  | .lad       => t.lad = s.lad
  | .vsy       => t.status .vsy = s.status .vsy
  | .hbl       => t.status .hbl = s.status .hbl
  | .hsync     => t.raster.hsyncLevel = s.raster.hsyncLevel
  | .blink     => t.raster.blinkCtr = s.raster.blinkCtr
  | .dma       => t.status .dma = s.status .dma
  | .drq       => t.drq = s.drq
  | .lpd       => t.status .lpd = s.status .lpd
  | .dip       => t.status .dip = s.status .dip
  | .position  => (t.raster.hnext, t.raster.vnext) = (s.raster.hnext, s.raster.vnext)

/-- The commands that write the field (R20 to R28, R48, R131, R160, R165, R182). -/
def StateField.writers : StateField → List Mnemonic
  | .geom        => [.sync, .reset]
  | .pitch       => [.pitch]
  | .de          => [.reset, .sync, .start, .bctrl]
  | .master      => [.vsync]
  | .cursor      => [.cchar]
  | .zoom        => [.zoom]
  | .ead | .dad  => [.reset, .curs, .wdat, .rdat, .figd, .gchrd]
  | .mask        => [.reset, .mask, .wdat, .rdat, .figd, .gchrd]
  | .ra          => [.pram, .reset]
  | .raPtr       => [.pram]
  | .xfer        => [.wdat, .rdat, .dmar, .dmaw]
  | .figShape    => [.figs]
  | .figRepeat   => [.figs, .wdat, .rdat, .figd]
  | .figSteps    => [.figs, .figd]
  | .mem         => [.wdat, .gchrd, .figd]
  | .dma | .drq  => [.dmar, .dmaw]
  | .lpd         => [.lprd]
  | .position    => [.sync, .reset]
  | .lad | .vsy | .hbl | .hsync | .blink | .dip => []

/-- The events other than a port write that move the field (R53, R167, R183, R226 to R229). -/
def StateField.MovedBy (e : Event) : StateField → Prop
  | .mem => ∃ a v, e = .memStore a v
  | .lad | .lpd => ∃ a, e = .lightPen a
  | .vsy | .hbl | .hsync | .blink => e = .tick
  | .dma | .drq => e = .dmaEnd
  | .position => e = .tick ∨ e = .extVsync
  | _ => False

theorem StateField.Kept.refl (s : State) (f : StateField) : f.Kept s s := by
  cases f <;> rfl

theorem StateField.Kept.trans {s t u : State} {f : StateField} (h : f.Kept s t) (h' : f.Kept t u) : f.Kept s u := by
  cases f <;> exact Eq.trans h' h

theorem Booked.kept {s u : State} (h : Booked s u) (f : StateField) : f.Kept s u := by
  obtain ⟨d, l, rfl, hptr, hx, hm⟩ := h
  cases f with
  | raPtr => exact hptr
  | xfer => exact Prod.ext hx hm
  | _ => rfl

/-- The FIFO's own status bits are no field of the table. -/
theorem kept_emptied (s : State) (f : StateField) : f.Kept s s.emptied := by
  cases f <;> simp [StateField.Kept, State.emptied, State.status, statusGet_cleared]

/-! ### What an operation leaves within the records it writes -/

section
variable (s : State)

/-- SYNC moves the raster position, not the HSYNC level and the blink counter (R111, R228). -/
@[simp] theorem State.applySync_raster_frame (f : Bool) :
    (s.applySync f).raster.hsyncLevel = s.raster.hsyncLevel ∧ (s.applySync f).raster.blinkCtr = s.raster.blinkCtr := by
  simp [State.applySync]

/-- VSYNC moves no part of the raster but the hold (R114). -/
@[simp] theorem State.applyVsync_raster_frame (f : Bool) :
    (s.applyVsync f).raster.hnext = s.raster.hnext ∧ (s.applyVsync f).raster.vnext = s.raster.vnext ∧
    (s.applyVsync f).raster.hsyncLevel = s.raster.hsyncLevel ∧
    (s.applyVsync f).raster.blinkCtr = s.raster.blinkCtr := ⟨rfl, rfl, rfl, rfl⟩

/-- CURS keeps to its own fields (R131). -/
@[simp] theorem State.applyCurs_addr_frame : s.applyCurs.addr.mask = s.addr.mask := rfl

/-- MASK keeps to its own field (R131, R135). -/
@[simp] theorem State.applyMask_addr_frame :
    s.applyMask.addr.ead = s.addr.ead ∧ s.applyMask.addr.dad = s.addr.dad := ⟨rfl, rfl⟩

/-- A PRAM byte keeps the latched transfer type and mode (R133). -/
@[simp] theorem State.applyPramByte_disp_frame (v : Byte) :
    (s.applyPramByte v).disp.xtype = s.disp.xtype ∧ (s.applyPramByte v).disp.mod = s.disp.mod := by
  unfold State.applyPramByte
  split <;> exact ⟨rfl, rfl⟩

@[simp] theorem State.startWdat_disp_frame (x : XferType) (m : ModMode) :
    (s.startWdat x m).disp.raPtr = s.disp.raPtr := by
  unfold State.startWdat
  split <;> rfl

/-- WDAT changes no figure register but the repeat count (R155). -/
@[simp] theorem State.applyWdat_fig_frame :
    s.applyWdat.fig.dir = s.fig.dir ∧ s.applyWdat.fig.type = s.fig.type ∧ s.applyWdat.fig.gd = s.fig.gd ∧
    s.applyWdat.fig.d = s.fig.d ∧ s.applyWdat.fig.d2 = s.fig.d2 ∧ s.applyWdat.fig.d1 = s.fig.d1 ∧
    s.applyWdat.fig.dm = s.fig.dm := by
  unfold State.applyWdat
  split <;> simp

/-- RDAT changes no figure register but the repeat count (R158). -/
@[simp] theorem State.applyRdat_fig_frame (x : XferType) (m : ModMode) :
    (s.applyRdat x m).fig.dir = s.fig.dir ∧ (s.applyRdat x m).fig.type = s.fig.type ∧
    (s.applyRdat x m).fig.gd = s.fig.gd ∧ (s.applyRdat x m).fig.d = s.fig.d ∧
    (s.applyRdat x m).fig.d2 = s.fig.d2 ∧ (s.applyRdat x m).fig.d1 = s.fig.d1 ∧
    (s.applyRdat x m).fig.dm = s.fig.dm := by
  unfold State.applyRdat
  dsimp only
  split <;> simp

@[simp] theorem State.applyRdat_disp_frame (x : XferType) (m : ModMode) :
    (s.applyRdat x m).disp.raPtr = s.disp.raPtr := by
  rw [(keepsDispatcher_applyRdat s x m).1, State.latchXfer_disp]

/-- FIGD keeps the figure registers that R160 does not leave unspecified. -/
@[simp] theorem State.applyFigd_fig_frame :
    s.applyFigd.fig.dir = s.fig.dir ∧ s.applyFigd.fig.type = s.fig.type ∧ s.applyFigd.fig.gd = s.fig.gd := by
  unfold State.applyFigd
  split <;> exact ⟨rfl, rfl, rfl⟩

@[simp] theorem State.applyDma_disp_frame (x : XferType) (m : ModMode) :
    (s.applyDma x m).disp.raPtr = s.disp.raPtr := by
  rw [(keepsDispatcher_applyDma s x m).1, State.latchXfer_disp]

@[simp] theorem State.extVsync_raster_frame :
    s.extVsync.raster.hsyncLevel = s.raster.hsyncLevel ∧ s.extVsync.raster.blinkCtr = s.raster.blinkCtr := by
  unfold State.extVsync
  split <;> exact ⟨rfl, rfl⟩

end

/-! The status bits that are not the FIFO's. -/

/-- Turning the FIFO to READ and queueing result bytes moves no status bit but the FIFO's own. -/
theorem State.status_readBack_other (s : State) (bs : List Byte) (b : StatusBit)
    (hfe : b ≠ .fe) (hff : b ≠ .ff) (hdr : b ≠ .dr) :
    ((s.setDirection .read).enqueueResults bs).status b = s.status b := by
  rw [State.status_enqueueResults_other _ _ _ hfe hff hdr, State.status_setDirection_other _ _ _ hfe hff hdr]

theorem State.status_applyRdat_other (s : State) (x : XferType) (m : ModMode) (b : StatusBit)
    (hfe : b ≠ .fe) (hff : b ≠ .ff) (hdr : b ≠ .dr) : (s.applyRdat x m).status b = s.status b := by
  have turned : (s.latchXfer x m).turnForInvalid.status b = s.status b := by
    unfold State.turnForInvalid
    split
    · rfl
    · exact State.status_setDirection_other _ _ _ hfe hff hdr
  unfold State.applyRdat
  dsimp only
  split
  · exact turned
  · rw [State.readOutN_eq]
    exact State.status_readBack_other (s.latchXfer x m) _ b hfe hff hdr

theorem State.status_applyDma_other (s : State) (x : XferType) (m : ModMode) (b : StatusBit) (hb : b ≠ .dma) :
    (s.applyDma x m).status b = s.status b := by
  simp [State.applyDma, State.status, statusGet_put, hb]

theorem State.status_applyCurd_other (s : State) (b : StatusBit) (hfe : b ≠ .fe) (hff : b ≠ .ff) (hdr : b ≠ .dr) :
    s.applyCurd.status b = s.status b := s.status_readBack_other _ b hfe hff hdr

theorem State.status_lightPenDetect_other (s : State) (a : VAddr) (b : StatusBit) (hb : b ≠ .lpd) :
    (s.lightPenDetect a).status b = s.status b := by
  rw [State.lightPenDetect, State.status_setStatus, if_neg hb]
  rfl

theorem State.status_applyLprd_other (s : State) (b : StatusBit) (hfe : b ≠ .fe) (hff : b ≠ .ff) (hdr : b ≠ .dr)
    (hb : b ≠ .lpd) : s.applyLprd.status b = s.status b := by
  rw [State.applyLprd, State.status_setStatus, if_neg hb, State.status_readBack_other _ _ _ hfe hff hdr]

/-! ### What the commands write -/

/-- No effect of a command moves a field that does not name the command as a writer. -/
theorem effect_keeps_field {i : Instr} {f : StateField} (hi : i.mnemonic ∉ f.writers) (s : State) :
    ∀ apply ∈ effectsOf i, f.Kept s (apply s) := by
  cases i with
  | rdat x m =>
    cases f <;> simp_all [effectsOf, StateField.Kept, StateField.writers, Instr.mnemonic, State.status_applyRdat_other]
  | dmar x m | dmaw x m =>
    cases f <;> simp_all [effectsOf, StateField.Kept, StateField.writers, Instr.mnemonic, State.status_applyDma_other]
  | curd =>
    cases f <;> simp_all [effectsOf, StateField.Kept, StateField.writers, Instr.mnemonic, State.status_applyCurd_other]
  | lprd =>
    cases f <;> simp_all [effectsOf, StateField.Kept, StateField.writers, Instr.mnemonic, State.status_applyLprd_other]
  | _ =>
    -- The others leave the status register.
    cases f <;> simp_all [effectsOf, StateField.Kept, StateField.writers, Instr.mnemonic, State.status]

/-! ### What the events move -/

theorem State.status_dataRead_other (s : State) (b : StatusBit) (hfe : b ≠ .fe) (hff : b ≠ .ff) (hdr : b ≠ .dr) :
    s.dataRead.status b = s.status b := by
  unfold State.dataRead
  split
  next e u _ hq =>
    obtain ⟨q, -, rfl⟩ := State.dequeue_some hq
    exact status_afterDequeue_other s.sr q.length b hfe hff hdr
  next => simp [State.status]

theorem portRead_keeps_field (s : State) (offset : Nat) (f : StateField) : f.Kept s (portRead offset s) := by
  unfold portRead
  split
  · cases f <;> rfl
  · cases f <;> simp [StateField.Kept, State.status_dataRead_other]

theorem State.status_dmaEnd_other (s : State) (b : StatusBit) (hb : b ≠ .dma) : s.dmaEnd.status b = s.status b := by
  have ended : (s.setStatus .dma false).status b = s.status b := by simp [hb]
  unfold State.dmaEnd
  dsimp only
  split <;> exact ended

/-- No event but a port write moves a field that does not name the event. -/
theorem event_keeps_field {e : Event} {f : StateField} {s t : State} (hf : ¬ f.MovedBy e)
    (hw : ∀ offset b, e ≠ .portWrite offset b) (h : handleEvent e s = .next t) : f.Kept s t := by
  cases e with
  | portWrite offset b => exact absurd rfl (hw offset b)
  | portRead offset =>
    cases h
    exact portRead_keeps_field s offset f
  | tick =>
    cases h
    cases f <;> simp_all [StateField.Kept, StateField.MovedBy, State.status_tick_other]
  | lightPen a =>
    cases h
    cases f <;> simp_all [StateField.Kept, StateField.MovedBy, State.status_lightPenDetect_other]
  | dmaEnd =>
    cases h
    cases f <;> simp_all [StateField.Kept, StateField.MovedBy, State.status_dmaEnd_other]
  | renderLine y | renderFrame | extVsync | memStore a v =>
    cases h
    cases f <;> simp_all [StateField.Kept, StateField.MovedBy, State.status]

/-! ### Steps -/

/-- The step from `s` to `t` is a port write of one of these commands: of its command byte or of a parameter byte. -/
def WrittenBy (names : List Mnemonic) (s t : State) : Prop :=
  ∃ offset b rest name, s.events = .portWrite offset b :: rest ∧ name ∈ names ∧ t.disp.cmd = .command name

/-- A dispatched byte moves a field only if it leaves one of the field's writers in flight. -/
theorem Dispatches.keeps_field {s t : State} (h : Dispatches s t) (f : StateField) :
    f.Kept s t ∨ ∃ name ∈ f.writers, t.disp.cmd = .command name := by
  obtain hk | ⟨i, u, hk, hcmd, hrun⟩ := h
  · exact .inl (hk.kept f)
  by_cases hi : i.mnemonic ∈ f.writers
  · exact .inr ⟨i.mnemonic, hi, (exec_runsCommand hrun).cmd.trans hcmd⟩
  · exact .inl ((hk.kept f).trans
      (exec_keeps (P := f.Kept u) (fun _ _ hb h => h.trans (hb.kept f)) (effect_keeps_field hi u) (.refl u f) hrun))

/-- A step between two events moves a field only in a port write of one of its writers, or by an event it names. -/
theorem step_moves_field {s t : State} (hs : s.WriteReady) (h : step s = .next t) (f : StateField) (hf : ¬ f.Kept s t) :
    WrittenBy f.writers s t ∨ ∃ e rest, s.events = e :: rest ∧ f.MovedBy e := by
  obtain ⟨-, rfl⟩ | ⟨e, rest, hev, h⟩ := step_cases h
  · exact absurd (.refl _ f) hf
  have taken : f.Kept s { s with events := rest } := by cases f <;> rfl
  by_cases hm : f.MovedBy e
  · exact .inr ⟨e, rest, hev, hm⟩
  by_cases hw : ∃ offset b, e = .portWrite offset b
  · obtain ⟨offset, b, rfl⟩ := hw
    obtain hk | hk := portWrite_cases (s := { s with events := rest }) hs h
    · exact absurd (taken.trans (hk.kept f)) hf
    · obtain hk | ⟨name, hn, hcmd⟩ := hk.keeps_field f
      · exact absurd (taken.trans ((kept_emptied _ f).trans hk)) hf
      · exact .inl ⟨offset, b, rest, name, hev, hn, hcmd⟩
  · exact absurd (taken.trans (event_keeps_field hm (fun o b e => hw ⟨o, b, e⟩) h)) hf

/-- Where no other event moves a field, a step moves it only in a port write of one of its writers. -/
theorem step_writes_field {s t : State} (hs : s.WriteReady) (h : step s = .next t) (f : StateField)
    (hn : ∀ e, ¬ f.MovedBy e) (hf : ¬ f.Kept s t) : WrittenBy f.writers s t :=
  (step_moves_field hs h f hf).resolve_right fun ⟨e, _, _, he⟩ => hn e he

/-- A step moves a field that no command writes only by an event the field names. -/
theorem step_event_moves_field {s t : State} (hs : s.WriteReady) (h : step s = .next t) (f : StateField)
    (hw : f.writers = []) (hf : ¬ f.Kept s t) : ∃ e rest, s.events = e :: rest ∧ f.MovedBy e :=
  (step_moves_field hs h f hf).resolve_left fun ⟨_, _, _, _, _, hn, _⟩ => by simp [hw] at hn

/-- Settles O58: the table of writers and moving events, read for each field of the register file. -/
theorem onlyNamedCommandsWriteRegisters : Obligations.OnlyNamedCommandsWriteRegisters := by
  intro s t hs h
  have written := step_writes_field hs h
  refine ⟨written .geom fun _ => id, written .pitch fun _ => id, written .de fun _ => id, written .master fun _ => id,
    written .cursor fun _ => id, written .zoom fun _ => id, written .ead fun _ => id, written .dad fun _ => id,
    written .mask fun _ => id, written .ra fun _ => id, written .raPtr fun _ => id, written .xfer fun _ => id,
    written .figShape fun _ => id, written .figRepeat fun _ => id, written .figSteps fun _ => id,
    fun hf => ?_, fun hf => ?_⟩
  · obtain hw | ⟨e, rest, hev, a, v, rfl⟩ := step_moves_field hs h .mem hf
    · exact .inl hw
    · exact .inr ⟨a, v, rest, hev⟩
  · obtain ⟨e, rest, hev, a, rfl⟩ := step_event_moves_field hs h .lad rfl hf
    exact ⟨a, rest, hev⟩

/-- Settles O59: the same table, read for the status bits, the levels and the raster position. -/
theorem onlyNamedEventsMoveStatus : Obligations.OnlyNamedEventsMoveStatus := by
  intro s t hs h
  have ticked (f : StateField) (hw : f.writers = []) (ht : ∀ e, f.MovedBy e → e = .tick) (hf : ¬ f.Kept s t) :
      ∃ rest, s.events = .tick :: rest := by
    obtain ⟨e, rest, hev, he⟩ := step_event_moves_field hs h f hw hf
    exact ⟨rest, ht e he ▸ hev⟩
  have transferred (f : StateField) (hd : ∀ e, f.MovedBy e → e = .dmaEnd) (hf : ¬ f.Kept s t) :
      WrittenBy f.writers s t ∨ ∃ rest, s.events = .dmaEnd :: rest :=
    (step_moves_field hs h f hf).imp_right fun ⟨e, rest, hev, he⟩ => ⟨rest, hd e he ▸ hev⟩
  refine ⟨ticked .vsy rfl fun _ => id, ticked .hbl rfl fun _ => id, ticked .hsync rfl fun _ => id,
    ticked .blink rfl fun _ => id, transferred .dma fun _ => id, transferred .drq fun _ => id,
    fun hf => ?_, ?_, fun hf => ?_⟩
  · obtain hw | ⟨e, rest, hev, a, rfl⟩ := step_moves_field hs h .lpd hf
    · exact .inl hw
    · exact .inr ⟨a, rest, hev⟩
  · by_contra hf
    obtain ⟨_, _, _, he⟩ := step_event_moves_field hs h .dip rfl hf
    exact he
  · obtain hw | ⟨e, rest, hev, rfl | rfl⟩ := step_moves_field hs h .position hf
    · exact .inr (.inl hw)
    · exact .inl ⟨rest, hev⟩
    · exact .inr (.inr ⟨rest, hev⟩)

end Sys2Proof.Machine

/-! ## The output streams and the parameters (R30, R266) -/

namespace Sys2Proof.Machine

/-- From `s` to `t` the output streams only grew, and no parameter and no pending event changed. -/
structure OnlyGrows (s t : State) : Prop where
  log    : s.out.log <+: t.out.log
  lines  : s.out.lines <+: t.out.lines
  pixels : s.out.pixels <+: t.out.pixels
  reads  : s.out.reads <+: t.out.reads
  cfg    : t.cfg = s.cfg
  events : t.events = s.events

theorem OnlyGrows.trans {s t u : State} (h : OnlyGrows s t) (h' : OnlyGrows t u) : OnlyGrows s u where
  log    := h.log.trans h'.log
  lines  := h.lines.trans h'.lines
  pixels := h.pixels.trans h'.pixels
  reads  := h.reads.trans h'.reads
  cfg    := h'.cfg.trans h.cfg
  events := h'.events.trans h.events

theorem OnlyGrows.of_silent {s t : State} (ho : t.out = s.out) (hc : t.cfg = s.cfg) (he : t.events = s.events) :
    OnlyGrows s t :=
  ⟨by rw [ho], by rw [ho], by rw [ho], by rw [ho], hc, he⟩

/-- What only adds to the streams of a state adds to those of a state that put out as much. -/
theorem OnlyGrows.after_silent {s t u : State} (h : OnlyGrows t u) (ho : t.out = s.out) (hc : t.cfg = s.cfg)
    (he : t.events = s.events) : OnlyGrows s u :=
  (OnlyGrows.of_silent ho hc he).trans h

theorem OnlyGrows.refl (s : State) : OnlyGrows s s := .of_silent rfl rfl rfl

/-! ### The operations that put something out -/

theorem onlyGrows_raiseLog (s : State) (c : LogCode) (b : Byte) : OnlyGrows s (s.raiseLog c b) :=
  ⟨List.prefix_append _ _, List.prefix_rfl, List.prefix_rfl, List.prefix_rfl, rfl, rfl⟩

theorem onlyGrows_driveLine (s : State) (n : LineName) (l : Bool) : OnlyGrows s (s.driveLine n l) :=
  ⟨List.prefix_rfl, List.prefix_append _ _, List.prefix_rfl, List.prefix_rfl, rfl, rfl⟩

theorem onlyGrows_emitPixels (s : State) (ps : List Pixel) : OnlyGrows s (s.emitPixels ps) :=
  ⟨List.prefix_rfl, List.prefix_rfl, List.prefix_append _ _, List.prefix_rfl, rfl, rfl⟩

theorem onlyGrows_returnByte (s : State) (b : Byte) : OnlyGrows s (s.returnByte b) :=
  ⟨List.prefix_rfl, List.prefix_rfl, List.prefix_rfl, List.prefix_append _ _, rfl, rfl⟩

theorem Booked.onlyGrows {s u : State} (h : Booked s u) : OnlyGrows s u := by
  obtain ⟨d, l, rfl, -⟩ := h
  exact ⟨List.prefix_append _ _, List.prefix_rfl, List.prefix_rfl, List.prefix_rfl, rfl, rfl⟩

theorem onlyGrows_enqueue (s : State) (b : Byte) (c : Bool) : OnlyGrows s (s.enqueue b c) := by
  rcases s.enqueue_cases b c with ⟨-, e⟩ | ⟨-, e⟩ <;> rw [e]
  · exact onlyGrows_raiseLog _ _ _
  · exact .of_silent rfl rfl rfl

theorem onlyGrows_enqueueResults (s : State) (bs : List Byte) : OnlyGrows s (s.enqueueResults bs) := by
  induction bs generalizing s with
  | nil => exact .refl s
  | cons b bs ih => exact (onlyGrows_enqueue s b false).trans (ih _)

theorem onlyGrows_setDirection (s : State) (d : FifoDir) : OnlyGrows s (s.setDirection d) :=
  .of_silent (by simp) (by simp) (by simp)

theorem onlyGrows_setStatus (s : State) (b : StatusBit) (v : Bool) : OnlyGrows s (s.setStatus b v) :=
  .of_silent rfl rfl rfl

theorem onlyGrows_readBack (s : State) (bs : List Byte) :
    OnlyGrows s ((s.setDirection .read).enqueueResults bs) :=
  (onlyGrows_setDirection s .read).trans (onlyGrows_enqueueResults _ bs)

theorem onlyGrows_applyRdat (s : State) (x : XferType) (m : ModMode) : OnlyGrows s (s.applyRdat x m) := by
  have latched : OnlyGrows s (s.latchXfer x m) := .of_silent rfl rfl rfl
  unfold State.applyRdat
  dsimp only
  split
  · have turned : OnlyGrows (s.latchXfer x m) (s.latchXfer x m).turnForInvalid :=
      .of_silent (by simp) (by simp) (by simp)
    exact (latched.trans turned).trans (onlyGrows_raiseLog _ _ _)
  · rw [State.readOutN_eq]
    exact (latched.trans (onlyGrows_readBack _ _)).trans (.of_silent rfl rfl rfl)

theorem onlyGrows_startWdat (s : State) (x : XferType) (m : ModMode) : OnlyGrows s (s.startWdat x m) := by
  have latched : OnlyGrows s (s.latchXfer x m) := .of_silent rfl rfl rfl
  unfold State.startWdat
  split
  · exact (latched.trans (onlyGrows_raiseLog _ _ _)).trans (.of_silent rfl rfl rfl)
  · exact latched.trans (.of_silent rfl rfl rfl)

theorem onlyGrows_applySync (s : State) (f : Bool) : OnlyGrows s (s.applySync f) := by
  have clamped (u : State) : OnlyGrows u u.logClamp := by
    unfold State.logClamp
    split
    · exact onlyGrows_raiseLog _ _ _
    · exact .refl u
  have decoded : OnlyGrows s { s with geom := syncDecode s.disp.pr, de := f } := .of_silent rfl rfl rfl
  exact (decoded.trans (clamped _)).trans (.of_silent rfl rfl rfl)

theorem onlyGrows_applyFigd (s : State) : OnlyGrows s s.applyFigd := by
  unfold State.applyFigd
  split
  · exact onlyGrows_raiseLog _ _ _
  · exact (onlyGrows_raiseLog _ _ _).trans (.of_silent rfl rfl rfl)

theorem onlyGrows_applyDma (s : State) (x : XferType) (m : ModMode) : OnlyGrows s (s.applyDma x m) := by
  have raised (u : State) : OnlyGrows u u.raiseDrq := by
    unfold State.raiseDrq
    split
    · exact .refl u
    · exact (onlyGrows_driveLine _ _ _).after_silent rfl rfl rfl
  have marked : OnlyGrows s ((s.latchXfer x m).setStatus .dma true) := .of_silent rfl rfl rfl
  exact marked.trans (raised _)

/-- Every effect of every command only adds to the output streams. -/
theorem effect_onlyGrows (i : Instr) (s : State) : ∀ apply ∈ effectsOf i, OnlyGrows s (apply s) := by
  cases i with
  | reset =>
    exact List.forall_mem_cons.mpr ⟨.of_silent (by simp) (by simp) (by simp),
      List.forall_mem_singleton.mpr (onlyGrows_applySync s false)⟩
  | sync f => exact List.forall_mem_singleton.mpr (onlyGrows_applySync s f)
  | pram n =>
    exact List.forall_mem_cons.mpr ⟨.of_silent (by simp) (by simp) (by simp),
      List.forall_mem_singleton.mpr (.of_silent (by simp) (by simp) (by simp))⟩
  | wdat x m =>
    exact List.forall_mem_cons.mpr ⟨onlyGrows_startWdat s x m,
      List.forall_mem_singleton.mpr (.of_silent (by simp) (by simp) (by simp))⟩
  | rdat x m => exact List.forall_mem_singleton.mpr (onlyGrows_applyRdat s x m)
  | figd => exact List.forall_mem_singleton.mpr (onlyGrows_applyFigd s)
  | dmar x m | dmaw x m => exact List.forall_mem_singleton.mpr (onlyGrows_applyDma s x m)
  | curd => exact List.forall_mem_singleton.mpr (onlyGrows_readBack s _)
  | lprd => exact List.forall_mem_singleton.mpr ((onlyGrows_readBack s _).trans (onlyGrows_setStatus _ .lpd false))
  | _ => exact List.forall_mem_singleton.mpr (.of_silent (by simp) (by simp) (by simp))

/-! ### The events -/

theorem onlyGrows_portWrite {offset : Nat} {b : Byte} {s t : State} (h : portWrite offset b s = .next t) :
    OnlyGrows s t := by
  have accepted {c : Bool} (h : acceptByte b c s = .next t) : OnlyGrows s t :=
    acceptByte_keeps (P := OnlyGrows s) (fun u d hu => hu.trans (onlyGrows_setDirection u d))
      (fun u b c hu => hu.trans (onlyGrows_enqueue u b c)) (fun _ _ _ _ hu => hu.trans (.of_silent rfl rfl rfl))
      (fun e u v hu hd => (dispatchEntry_dispatches hd).keeps (fun _ _ hb hu => hu.trans hb.onlyGrows)
        (fun i u hu apply ha => hu.trans (effect_onlyGrows i u apply ha)) hu)
      (.refl s) h
  unfold portWrite at h
  split at h
  · exact accepted h
  · exact accepted h
  · cases h
    exact onlyGrows_raiseLog _ _ _

theorem onlyGrows_portRead (s : State) (offset : Nat) : OnlyGrows s (portRead offset s) := by
  unfold portRead
  split
  · exact onlyGrows_returnByte _ _
  · unfold State.dataRead
    split
    next e u _ hq =>
      obtain ⟨q, -, rfl⟩ := State.dequeue_some hq
      exact (onlyGrows_returnByte _ _).after_silent rfl rfl rfl
    next =>
      unfold State.openBusRead
      split
      · exact onlyGrows_returnByte _ _
      · exact (onlyGrows_returnByte _ _).trans (.of_silent rfl rfl rfl)

theorem onlyGrows_updateLevels (s : State) (h v : Nat) : OnlyGrows s (s.updateLevels h v) := by
  have vsync (u : State) (n : Bool) : OnlyGrows u (u.updateVsync n) := by
    unfold State.updateVsync
    split
    · exact (onlyGrows_driveLine _ _ _).after_silent rfl rfl rfl
    · exact .refl u
  have hsync (u : State) (n : Bool) : OnlyGrows u (u.updateHsync n) := by
    unfold State.updateHsync
    split
    · exact (onlyGrows_driveLine _ _ _).after_silent rfl rfl rfl
    · exact .refl u
  have blank (u : State) (n : Bool) : OnlyGrows u (u.updateBlank n) := by
    unfold State.updateBlank
    split
    · exact (onlyGrows_driveLine _ _ _).after_silent rfl rfl rfl
    · exact .refl u
  exact ((vsync s _).trans (hsync _ _)).trans (blank _ _)

theorem onlyGrows_tick (s : State) : OnlyGrows s s.tick := by
  have counted : OnlyGrows s s.countField := .of_silent rfl rfl rfl
  have moved (u : State) (r : Raster) : OnlyGrows u { u with raster := r } := .of_silent rfl rfl rfl
  unfold State.tick State.enterPosition
  dsimp only
  split
  · exact .refl s
  · split
    · exact (counted.trans (onlyGrows_updateLevels _ _ _)).trans (moved _ _)
    · exact (onlyGrows_updateLevels _ _ _).trans (moved _ _)

theorem onlyGrows_dmaEnd (s : State) : OnlyGrows s s.dmaEnd := by
  have ended : OnlyGrows s (s.setStatus .dma false) := .of_silent rfl rfl rfl
  unfold State.dmaEnd
  dsimp only
  split
  · exact (onlyGrows_driveLine _ _ _).after_silent rfl rfl rfl
  · exact ended

theorem handleEvent_onlyGrows {e : Event} {s t : State} (h : handleEvent e s = .next t) : OnlyGrows s t := by
  cases e with
  | portWrite offset b => exact onlyGrows_portWrite h
  | portRead offset => cases h; exact onlyGrows_portRead s offset
  | tick => cases h; exact onlyGrows_tick s
  | renderLine y | renderFrame => cases h; exact onlyGrows_emitPixels s _
  | dmaEnd => cases h; exact onlyGrows_dmaEnd s
  | extVsync | lightPen a | memStore a v => cases h; exact .of_silent (by simp) (by simp) (by simp)

/-- Settles O57: an event only adds to the streams, from the state in which it was taken off the pending ones. -/
theorem outputsOnlyGrow : Obligations.OutputsOnlyGrow := by
  intro s t h
  obtain ⟨hev, rfl⟩ | ⟨e, rest, hev, h⟩ := step_cases h
  · exact ⟨List.prefix_rfl, List.prefix_rfl, List.prefix_rfl, List.prefix_rfl, rfl, by simp [hev]⟩
  · obtain ⟨hlog, hlines, hpixels, hreads, hcfg, hevents⟩ := handleEvent_onlyGrows h
    exact ⟨hlog, hlines, hpixels, hreads, hcfg, by simpa [hev] using hevents⟩

/-! ## The creation state (R32) -/

/-- Settles O51: the table of R32 is the definition of `State.reset`, and its invariants are decided there. -/
theorem creationState : Obligations.CreationState := by
  have ok : State.reset.Ok := by decide
  have blank (k : BitVec 4) : bankGet State.reset.ra k = 0#8 := bankGet_replicate k 0#8
  exact ⟨rfl, rfl, rfl, rfl, rfl, rfl, rfl, rfl, rfl, rfl, rfl, rfl, rfl, rfl, rfl, rfl, rfl, rfl, rfl, blank, rfl, rfl,
    rfl, rfl, rfl, rfl, ok⟩

end Sys2Proof.Machine

/-! ## A write to a port without a write function (R41, R252 (f)) -/

namespace Sys2Proof.Machine

/-- A write to an offset without a write function only logs the reduced offset: the FIFO is not turned to WRITE. -/
theorem portWrite_of_ignored {offset : Nat} {s : State} (h : writePortAt s.cfg.portMap offset = .ignored) (b : Byte) :
    portWrite offset b s = .next (s.raiseLog .badPort (BitVec.ofNat 8 (offset % portCount s.cfg.portMap))) := by
  simp only [portWrite, h]

/-- Settles O10: offset 0 has no write function under `THREE_PORT`, so the step is the log entry of such a write. -/
theorem badPortWriteIsLogged : Obligations.BadPortWriteIsLogged := by
  intro s b rest hev hmap
  have hport : writePortAt s.cfg.portMap 0 = .ignored := by rw [hmap]; rfl
  calc step s
      = portWrite 0 b { s with events := rest } := step_cons hev
    _ = .next (({ s with events := rest } : State).raiseLog .badPort (BitVec.ofNat 8 (0 % portCount s.cfg.portMap))) :=
        portWrite_of_ignored (s := { s with events := rest }) hport b
    _ = .next { s with events := rest, out := { s.out with log := s.out.log ++ [⟨.badPort, 0#8⟩] } } := by
        rw [Nat.zero_mod]; rfl

end Sys2Proof.Machine

/-! ## Encoding (R60 to R67) -/

namespace Sys2Proof

/-! ### The operand fields (R61) -/

/-- The operand fields are read back from the byte of the instruction's own format. -/
theorem instrOf_encode (i : Instr) : instrOf i.mnemonic (encode i) = i := by
  cases i with
  | sync f | vsync f | bctrl f => cases f <;> rfl
  | pram n => exact congrArg Instr.pram (by revert n; decide)
  | wdat t m | rdat t m | dmar t m | dmaw t m => cases t <;> cases m <;> rfl
  | _ => rfl

/-- The row's pattern and the operand bits that its mask leaves open are all there is in the byte of a row. -/
theorem encode_instrOf : ∀ r ∈ opTable, ∀ b, encode (instrOf r.name b) = r.pattern ||| (b &&& ~~~r.mask) := by
  decide

/-- A byte that matches a row has the row's pattern under its mask, so nothing of it is dropped. -/
theorem encode_instrOf_of_matchesByte {r : OpRow} (hr : r ∈ opTable) {b : Byte} (h : r.matchesByte b = true) :
    encode (instrOf r.name b) = b := by
  have hpattern : b &&& r.mask = r.pattern := by simpa [OpRow.matchesByte] using h
  rw [encode_instrOf r hr, ← hpattern, ← BitVec.and_or_distrib_left, BitVec.or_not_self, BitVec.and_allOnes]

/-! ### The table (R62, R66) -/

theorem encodesInItsRow (i : Instr) : Laws.EncodesInItsRow.Statement i := by
  cases i with
  | reset => exact Laws.EncodesInItsRow.reset
  | sync f => exact Laws.EncodesInItsRow.sync f
  | vsync f => exact Laws.EncodesInItsRow.vsync f
  | cchar => exact Laws.EncodesInItsRow.cchar
  | start => exact Laws.EncodesInItsRow.start
  | bctrl f => exact Laws.EncodesInItsRow.bctrl f
  | zoom => exact Laws.EncodesInItsRow.zoom
  | pitch => exact Laws.EncodesInItsRow.pitch
  | curs => exact Laws.EncodesInItsRow.curs
  | pram n => exact Laws.EncodesInItsRow.pram n
  | mask => exact Laws.EncodesInItsRow.mask
  | figs => exact Laws.EncodesInItsRow.figs
  | wdat t m => exact Laws.EncodesInItsRow.wdat t m
  | rdat t m => exact Laws.EncodesInItsRow.rdat t m
  | figd => exact Laws.EncodesInItsRow.figd
  | gchrd => exact Laws.EncodesInItsRow.gchrd
  | dmar t m => exact Laws.EncodesInItsRow.dmar t m
  | dmaw t m => exact Laws.EncodesInItsRow.dmaw t m
  | curd => exact Laws.EncodesInItsRow.curd
  | lprd => exact Laws.EncodesInItsRow.lprd

theorem exists_row (name : Mnemonic) : ∃ r ∈ opTable, r.name = name := by
  cases name <;> decide

/-- The rows that match one byte all have one name, so their order does not matter. -/
theorem name_eq_of_matchesByte {r r' : OpRow} (hr : r ∈ opTable) (hr' : r' ∈ opTable) {b : Byte}
    (h : r.matchesByte b = true) (h' : r'.matchesByte b = true) : r'.name = r.name := by
  have own := encodesInItsRow (instrOf r.name b) r' hr'
  rw [encode_instrOf_of_matchesByte hr h, Machine.instrOf_mnemonic] at own
  exact own.mp h'

/-- Decoding takes a row that matches, or finds none. -/
theorem decode_cases (b : Byte) :
    (∃ r ∈ opTable, r.matchesByte b = true ∧ decode b = .ok (instrOf r.name b))
      ∨ (∀ r ∈ opTable, r.matchesByte b = false) ∧ decode b = .error (.invalid b) := by
  cases hfind : opTable.find? (fun r => r.matchesByte b) with
  | some r =>
    have hmatch : r.matchesByte b = true := List.find?_some (p := fun r : OpRow => r.matchesByte b) hfind
    exact .inl ⟨r, List.mem_of_find?_eq_some hfind, hmatch, by simp only [decode, hfind]⟩
  | none => exact .inr ⟨by simpa using hfind, by simp only [decode, hfind]⟩

theorem decode_of_matchesByte {r : OpRow} (hr : r ∈ opTable) {b : Byte} (h : r.matchesByte b = true) :
    decode b = .ok (instrOf r.name b) := by
  obtain ⟨r', hr', h', hdec⟩ | ⟨hnone, -⟩ := decode_cases b
  · rw [hdec, name_eq_of_matchesByte hr hr' h h']
  · exact absurd h (by simp [hnone r hr])

theorem decode_error_iff (b : Byte) : decode b = .error (.invalid b) ↔ ∀ r ∈ opTable, r.matchesByte b = false := by
  obtain ⟨r, hr, h, hdec⟩ | ⟨hnone, hdec⟩ := decode_cases b
  · simp only [hdec, reduceCtorEq, false_iff]
    exact fun hnone => absurd h (by simp [hnone r hr])
  · exact iff_of_true hdec hnone

theorem decode_encode (i : Instr) : decode (encode i) = .ok i := by
  obtain ⟨r, hr, hname⟩ := exists_row i.mnemonic
  rw [decode_of_matchesByte hr ((encodesInItsRow i r hr).mpr hname), hname, instrOf_encode]

theorem encode_of_decode {b : Byte} {i : Instr} (h : decode b = .ok i) : encode i = b := by
  obtain ⟨r, hr, hmatch, hdec⟩ | ⟨-, hdec⟩ := decode_cases b <;> rw [hdec] at h
  · cases h
    exact encode_instrOf_of_matchesByte hr hmatch
  · cases h

@[simp] theorem tableByte_toNat (b : Byte) : tableByte 8 b.toNat = b := by
  have := b.isLt
  apply BitVec.eq_of_toNat_eq
  simp only [tableByte, BitVec.toNat_ofNat]
  omega

/-- Settles O2: an encoded byte matches its own row alone, and the fields of a row's format give the byte back. -/
theorem decodeAndEncodeAgree : Obligations.DecodeAndEncodeAgree := by
  refine ⟨fun i => ⟨decode_encode i, ?_⟩, fun b i => encode_of_decode⟩
  simp only [decodeTableWord, tableByte_toNat, decode_encode]

/-- Settles O1: the twenty bytes are closed, so decoding them is a computation. -/
theorem decodesGivenCommandBytes : Obligations.DecodesGivenCommandBytes := by
  unfold Obligations.DecodesGivenCommandBytes
  decide

/-- The bytes that match no row of the table (R67), found by going through all 256. -/
theorem matches_no_row_iff : ∀ b : Byte, (∀ r ∈ opTable, r.matchesByte b = false) ↔
    (0x01 ≤ b.toNat ∧ b.toNat ≤ 0x0B) ∨ (0x10 ≤ b.toNat ∧ b.toNat ≤ 0x1F) ∨ (0x40 ≤ b.toNat ∧ b.toNat ≤ 0x45)
      ∨ b.toNat = 0x48 ∨ (0x4D ≤ b.toNat ∧ b.toNat ≤ 0x67) ∨ b.toNat = 0x69 ∨ b.toNat = 0x6A ∨ b.toNat = 0x6D
      ∨ (0x80 ≤ b.toNat ∧ b.toNat ≤ 0x9F) ∨ (0xC1 ≤ b.toNat ∧ b.toNat ≤ 0xDF) ∨ 0xE1 ≤ b.toNat := by
  decide

/-- Settles O3: any row that matches decides the result, and an error is a byte that matches none. -/
theorem decodeFollowsTable : Obligations.DecodeFollowsTable :=
  ⟨fun _ _ hr h => decode_of_matchesByte hr h, fun b => (decode_error_iff b).trans (matches_no_row_iff b)⟩

end Sys2Proof

/-! ## How far a command is (R63, R91 to R95) -/

namespace Sys2Proof

/-- How many parameter bytes of the group in progress are held once `n` have been dispatched (R63, R94). -/
def Instr.held (i : Instr) (n : Nat) : Nat :=
  match i.arity with
  | .streaming g => n % g
  | _ => n

/-- What `pcount` is when the meaning runs for the `n`-th parameter byte, at `n = 0` for the command byte (R91, R92). -/
def Instr.arrived (i : Instr) : Nat → Nat
  | 0 => 0
  | n + 1 => i.held n + 1

theorem Instr.arrived_eq {i : Instr} (h : ∀ n, i.held n = n) (n : Nat) : i.arrived n = n := by
  cases n with
  | zero => rfl
  | succ n => exact congrArg (· + 1) (h n)

theorem Instr.takes_of_le {i : Instr} {m n : Nat} (h : i.takes n = true) (hmn : m ≤ n) : i.takes m = true := by
  cases i with
  | wdat x _ => cases x <;> simp_all [Instr.takes]
  | _ => simp_all [Instr.takes] <;> omega

theorem Instr.takes_zero (i : Instr) : i.takes 0 = true := by
  cases i with
  | wdat x _ => cases x <;> rfl
  | _ => rfl

/-- Whole groups of parameter bytes are all the command's own, and leave it not cut short. -/
theorem Instr.takes_of_admits {i : Instr} {n : Nat} (h : i.arity.admits n = true) :
    i.takes n = true ∧ i.cutShort n = false := by
  cases i with
  | wdat x _ => cases x <;> simp_all [Instr.arity, Arity.admits, Instr.takes, Instr.cutShort]
  | _ => simp_all [Instr.arity, Arity.admits, Instr.takes, Instr.cutShort] <;> omega

/-- A command that takes one more byte leaves room in the four bits of `pcount` (R16). -/
theorem Instr.held_lt {i : Instr} {n : Nat} (h : i.takes (n + 1) = true) : i.held n < 15 := by
  cases i with
  | wdat x _ => cases x <;> simp_all [Instr.takes, Instr.held, Instr.arity] <;> omega
  | _ => simp_all [Instr.takes, Instr.held, Instr.arity] <;> omega

namespace Machine

/-- The dispatcher after the command byte of `i` and `n` parameter bytes of it: it counts those of the group in
progress, and awaits exactly while another one would belong to the command. -/
structure Counts (i : Instr) (n : Nat) (d : Dispatcher) : Prop where
  pcount : d.pcount.toNat = i.held n
  phase  : d.phase = if i.takes (n + 1) then .await else .idle
  xtype  : ∀ x m, i = .wdat x m → d.xtype = x

/-- The dispatcher in which the meaning of `i` runs for its `n`-th parameter byte, at `n = 0` for the command byte. -/
structure Receives (i : Instr) (n : Nat) (d : Dispatcher) : Prop where
  takes  : i.takes n = true
  pcount : d.pcount.toNat = i.arrived n
  phase  : 0 < n → d.phase = .await
  xtype  : 0 < n → ∀ x m, i = .wdat x m → d.xtype = x

/-- The command takes up to `k` parameter bytes and counts all of them; WDAT, which latches a type, is not meant. -/
structure TakesUpTo (i : Instr) (k : Nat) : Prop where
  takes   : ∀ n, i.takes n = true ↔ n ≤ k
  held    : ∀ n, i.held n = n
  notWdat : ∀ x m, i ≠ .wdat x m

/-- Every command but PRAM and WDAT, whose parameters go on without end, takes its quota (R63, R93 to R95). -/
theorem takesUpTo {i : Instr} (hpram : ∀ p, i ≠ .pram p) (hwdat : ∀ x m, i ≠ .wdat x m) :
    TakesUpTo i (paramQuota i.mnemonic .word) := by
  cases i with
  | pram p => exact absurd rfl (hpram p)
  | wdat x m => exact absurd rfl (hwdat x m)
  | _ => exact ⟨by simp [Instr.takes, paramQuota, Instr.mnemonic], fun _ => rfl, hwdat⟩

theorem immediate_counts {i : Instr} {n : Nat} {apply : State → State} {s t : State} (hi : TakesUpTo i 0)
    (ha : (apply s).disp.pcount = s.disp.pcount) (hs : Receives i n s.disp) (h : immediate apply s = .next t) :
    Counts i n t.disp := by
  obtain rfl : n = 0 := Nat.le_zero.mp ((hi.takes n).mp hs.takes)
  cases h
  refine ⟨?_, ?_, fun x m e => absurd e (hi.notWdat x m)⟩
  · simp [ha, hs.pcount, hi.held, Instr.arrived]
  · exact (if_neg fun ht => absurd ((hi.takes 1).mp ht) (by decide)).symm

/-- A meaning that awaits up to `k` parameter bytes and idles at the `k`-th. -/
theorem counted_counts {i : Instr} {k : BitVec 4} {n : Nat} {s t u v w : State} (hi : TakesUpTo i k.toNat)
    (hk : 0 < k.toNat) (hu : u.disp = s.disp) (hv : v.disp = s.disp) (hw : w.disp = s.disp)
    (hs : Receives i n s.disp)
    (h : (if s.disp.pcount = 0#4 then .next (u.setPhase .await)
      else if s.disp.pcount = k then .next (v.setPhase .idle) else .next w : Result State) = .next t) :
    Counts i n t.disp := by
  have hcount : s.disp.pcount.toNat = n := by rw [hs.pcount, Instr.arrived_eq hi.held]
  have hle : n ≤ k.toNat := (hi.takes n).mp hs.takes
  split_ifs at h with h0 hlast <;> cases h <;>
    refine ⟨by simp [hu, hv, hw, hcount, hi.held], ?_, fun x m e => absurd e (hi.notWdat x m)⟩
  · have hn : n = 0 := by simpa [h0] using hcount.symm
    exact (if_pos ((hi.takes _).mpr (by omega))).symm
  · have hn : n = k.toNat := by rw [← hcount, hlast]
    exact (if_neg fun ht => absurd ((hi.takes _).mp ht) (by omega)).symm
  · have hpos : 0 < n := Nat.pos_of_ne_zero fun e => h0 (BitVec.eq_of_toNat_eq (hcount.trans e))
    have hlt : n < k.toNat := Nat.lt_of_le_of_ne hle fun e => hlast (BitVec.eq_of_toNat_eq (hcount.trans e))
    rw [hw, hs.phase hpos, if_pos ((hi.takes _).mpr hlt)]

theorem fixedArity_counts {i : Instr} {k : BitVec 4} {n : Nat} {apply : State → State} {s t : State}
    (hi : TakesUpTo i k.toNat) (hk : 0 < k.toNat) (ha : (apply s).disp = s.disp) (hs : Receives i n s.disp)
    (h : fixedArity k apply s = .next t) : Counts i n t.disp :=
  counted_counts hi hk rfl ha rfl hs h

theorem execPram_counts {p : BitVec 4} {n : Nat} {s t : State} (hs : Receives (.pram p) n s.disp)
    (h : execPram p s = .next t) : Counts (.pram p) n t.disp := by
  have hheld : Instr.held (.pram p) n = 0 := Nat.mod_one n
  unfold execPram at h
  cases n with
  | zero =>
    have h0 : s.disp.pcount = 0#4 := BitVec.eq_of_toNat_eq hs.pcount
    rw [if_pos h0] at h
    cases h
    exact ⟨by simp [h0, hheld], rfl, nofun⟩
  | succ n =>
    have h0 : s.disp.pcount ≠ 0#4 := fun e => by simpa [e, Instr.arrived] using hs.pcount
    rw [if_neg h0] at h
    cases h
    refine ⟨by simp [hheld], ?_, nofun⟩
    show (s.applyPramByte _).disp.phase = .await
    unfold State.applyPramByte
    split <;> exact hs.phase (Nat.succ_pos n)

/-- A word takes two data bytes, a half of one takes one (R155). -/
theorem held_wdat {x : XferType} (hx : x ≠ .invalid) (m : ModMode) (n : Nat) :
    Instr.held (.wdat x m) n = n % (wdatGroup x).toNat := by
  cases x with
  | invalid => exact absurd rfl hx
  | _ => rfl

theorem takes_wdat {x : XferType} (hx : x ≠ .invalid) (m : ModMode) (n : Nat) :
    Instr.takes (.wdat x m) n = true := by
  cases x with
  | invalid => exact absurd rfl hx
  | _ => rfl

/-- The command byte latches the type and awaits data, unless the type is invalid (R68, R155). -/
theorem startWdat_counts {s : State} (x : XferType) (m : ModMode) (h0 : s.disp.pcount = 0#4) :
    Counts (.wdat x m) 0 (s.startWdat x m).disp := by
  unfold State.startWdat
  split
  next hx =>
    subst hx
    exact ⟨by simp [h0, Instr.held, Instr.arity], rfl, fun _ _ e => by cases e; rfl⟩
  next hx =>
    exact ⟨by simp [h0, held_wdat hx], by simp [takes_wdat hx], fun _ _ e => by cases e; rfl⟩

theorem execWdat_counts {x : XferType} {m : ModMode} {n : Nat} {s t : State} (hs : Receives (.wdat x m) n s.disp)
    (h : execWdat x m s = .next t) : Counts (.wdat x m) n t.disp := by
  unfold execWdat at h
  cases n with
  | zero =>
    have h0 : s.disp.pcount = 0#4 := BitVec.eq_of_toNat_eq hs.pcount
    rw [if_pos h0] at h
    cases h
    exact startWdat_counts x m h0
  | succ n =>
    have h0 : s.disp.pcount ≠ 0#4 := fun e => by simpa [e, Instr.arrived] using hs.pcount
    have htype : s.disp.xtype = x := hs.xtype (Nat.succ_pos n) x m rfl
    have hphase : s.disp.phase = .await := hs.phase (Nat.succ_pos n)
    have hx : x ≠ .invalid := by
      rintro rfl
      exact absurd hs.takes (by simp [Instr.takes])
    have hcount : s.disp.pcount.toNat = n % (wdatGroup x).toNat + 1 := by
      rw [hs.pcount, Instr.arrived, held_wdat hx]
    have hgroup : 0 < (wdatGroup x).toNat := by cases x <;> decide
    rw [if_neg h0, htype] at h
    have hnext : (n + 1) % (wdatGroup x).toNat = s.disp.pcount.toNat % (wdatGroup x).toNat := by
      rw [hcount, Nat.mod_add_mod]
    have hle : s.disp.pcount.toNat ≤ (wdatGroup x).toNat := hcount ▸ Nat.mod_lt n hgroup
    split_ifs at h with hunit <;> cases h <;>
      refine ⟨?_, by simp [hphase, takes_wdat hx], fun _ _ e => by cases e; simpa using htype⟩
    · simp [held_wdat hx, hnext, hunit]
    · rw [held_wdat hx, hnext, Nat.mod_eq_of_lt]
      exact Nat.lt_of_le_of_ne hle fun e => hunit (BitVec.eq_of_toNat_eq e)

/-- Every meaning counts the byte it runs for. -/
theorem exec_counts {i : Instr} {n : Nat} {s t : State} (hs : Receives i n s.disp) (h : exec i s = .next t) :
    Counts i n t.disp := by
  cases i with
  | reset =>
    exact counted_counts (k := 8#4) (u := s.applyReset) (v := s.applySync false) (w := s)
      (takesUpTo nofun nofun) (by decide) (by simp) (by simp) rfl hs h
  | figs =>
    exact counted_counts (k := 11#4) (u := s) (v := s.applyFigsGroup) (w := s.applyFigsGroup)
      (takesUpTo nofun nofun) (by decide) rfl (by simp) (by simp) hs h
  | pram _ => exact execPram_counts hs h
  | wdat _ _ => exact execWdat_counts hs h
  | sync f =>
    exact fixedArity_counts (k := 8#4) (apply := fun s => s.applySync f)
      (takesUpTo nofun nofun) (by decide) (by simp) hs h
  | cchar | zoom | pitch | curs | mask =>
    exact fixedArity_counts (by exact takesUpTo nofun nofun) (by decide) (by simp) hs h
  | rdat x m =>
    exact immediate_counts (apply := fun s => s.applyRdat x m)
      (takesUpTo nofun nofun) (by rw [(keepsDispatcher_applyRdat s x m).1]; rfl) hs h
  | dmar x m | dmaw x m =>
    exact immediate_counts (apply := fun s => s.applyDma x m)
      (takesUpTo nofun nofun) (by rw [(keepsDispatcher_applyDma s x m).1]; rfl) hs h
  | vsync f => exact immediate_counts (apply := fun s => s.applyVsync f) (takesUpTo nofun nofun) (by simp) hs h
  | start =>
    exact immediate_counts (apply := fun s => s.setDisplayEnable true) (takesUpTo nofun nofun) (by simp) hs h
  | bctrl f =>
    exact immediate_counts (apply := fun s => s.setDisplayEnable f) (takesUpTo nofun nofun) (by simp) hs h
  | figd | gchrd | curd | lprd => exact immediate_counts (takesUpTo nofun nofun) (by simp) hs h

/-- The command byte of `i` and `n` parameter bytes of it have been dispatched. -/
structure Sent (i : Instr) (n : Nat) (s : State) : Prop extends Counts i n s.disp where
  cr  : s.disp.cr = encode i
  cmd : s.disp.cmd = .command i.mnemonic

theorem Sent.awaits {i : Instr} {n : Nat} {s : State} (h : Sent i n s) (ht : i.takes (n + 1) = true) :
    s.disp.phase = .await := by
  rw [h.phase, if_pos ht]

theorem Sent.takes_of_awaits {i : Instr} {n : Nat} {s : State} (h : Sent i n s) (hp : s.disp.phase = .await) :
    i.takes (n + 1) = true := by
  by_contra ht
  simp [h.phase, ht] at hp

/-- A parameter byte of the command is stored, and the meaning runs for it (R92). -/
theorem Sent.receives_storeParam {i : Instr} {n : Nat} {s : State} (h : Sent i n s) (ht : i.takes (n + 1) = true)
    (b : Byte) : Receives i (n + 1) (s.storeParam b).disp := by
  refine ⟨ht, ?_, fun _ => h.awaits ht, fun _ => h.xtype⟩
  have hlt := Instr.held_lt ht
  have hcount := h.pcount
  simp only [State.storeParam_disp, Instr.arrived]
  bv_omega

/-- While more bytes are awaited, `Incomplete()` of R91 says whether the command would be cut short. -/
theorem Sent.incomplete {i : Instr} {n : Nat} {s : State} (h : Sent i n s) (hp : s.disp.phase = .await) :
    s.disp.incomplete = i.cutShort n := by
  have ht := h.takes_of_awaits hp
  have hcount := h.pcount
  unfold Dispatcher.incomplete
  rw [h.cmd]
  cases i with
  | wdat x m =>
    have hx := h.xtype x m rfl
    cases x <;> simp_all [Instr.mnemonic, Instr.cutShort, Instr.held, Instr.arity, ← BitVec.toNat_inj]
  | figs =>
    simp only [Instr.takes, Instr.held, Instr.arity, decide_eq_true_eq] at ht hcount
    simp only [Instr.mnemonic, Instr.cutShort, ← BitVec.toNat_inj, hcount, BitVec.toNat_ofNat,
      ← Bool.decide_or, ← Bool.decide_and, decide_eq_decide]
    omega
  | _ => simp_all [Instr.mnemonic, Instr.cutShort, Instr.held, Instr.arity]

/-- A command with whole groups of parameter bytes is complete. -/
theorem Sent.settled {i : Instr} {n : Nat} {s : State} (h : Sent i n s) (hc : i.cutShort n = false) : s.Settled :=
  fun hp => (h.incomplete hp).trans hc

/-! ### Dispatching the bytes of a command -/

theorem exec_sent {i : Instr} {n : Nat} {s t : State} (hcr : s.disp.cr = encode i)
    (hcmd : s.disp.cmd = .command i.mnemonic) (hs : Receives i n s.disp) (h : exec i s = .next t) : Sent i n t := by
  have run := exec_runsCommand h
  exact { exec_counts hs h with cr := run.cr.trans hcr, cmd := run.cmd.trans hcmd }

theorem sent_of_loadCommand {i : Instr} {s t : State} (h : exec i (s.loadCommand (encode i)) = .next t) :
    Sent i 0 t :=
  exec_sent (s := s.loadCommand (encode i)) rfl (cmdOf_ok (decode_encode i))
    ⟨i.takes_zero, rfl, nofun, nofun⟩ h

theorem Sent.of_storeParam {i : Instr} {n : Nat} {b : Byte} {s t : State} (hs : Sent i n s)
    (ht : i.takes (n + 1) = true) (h : exec i (s.storeParam b) = .next t) : Sent i (n + 1) t :=
  exec_sent (s := s.storeParam b) hs.cr hs.cmd (hs.receives_storeParam ht b) h

theorem State.logUnderrun_of_settled {s : State} (h : s.Settled) : s.logUnderrun = s := by
  unfold State.logUnderrun
  rw [if_neg]
  rintro ⟨hp, hi⟩
  simp [h hp] at hi

theorem dispatchCommand_encode (i : Instr) (s : State) :
    dispatchCommand (encode i) s = exec i (s.logUnderrun.loadCommand (encode i)) := by
  simp only [dispatchCommand, decode_encode]

/-- A parameter byte that the command in flight takes is not stray: its meaning runs (R92, R98). -/
theorem Sent.dispatchParam_eq {i : Instr} {n : Nat} {s : State} (h : Sent i n s) (ht : i.takes (n + 1) = true)
    (b : Byte) : dispatchParam b s = exec i (s.storeParam b) := by
  simp only [dispatchParam, h.awaits ht, h.cmd, h.cr, instrOf_encode]

end Machine

end Sys2Proof

/-! ## Programs of well-formed commands (R63, R93 to R98, R252) -/

namespace Sys2Proof.Machine

/-! ### Tolerated log entries -/

/-- From `s` to `t` no log entry was made that is a protocol violation. -/
def LogsTolerated (s t : State) : Prop := ∃ es, t.out.log = s.out.log ++ es ∧ ∀ e ∈ es, e.tolerated = true

theorem LogsTolerated.of_silent {s t : State} (h : t.out.log = s.out.log) : LogsTolerated s t :=
  ⟨[], by simp [h], nofun⟩

theorem LogsTolerated.trans {s t u : State} (h : LogsTolerated s t) (h' : LogsTolerated t u) : LogsTolerated s u := by
  obtain ⟨es, he, hes⟩ := h
  obtain ⟨fs, hf, hfs⟩ := h'
  exact ⟨es ++ fs, by rw [hf, he, List.append_assoc],
    fun e hm => (List.mem_append.mp hm).elim (hes e) (hfs e)⟩

theorem logsTolerated_raiseLog (s : State) {c : LogCode} {b : Byte} (h : LogEntry.tolerated ⟨c, b⟩ = true) :
    LogsTolerated s (s.raiseLog c b) :=
  ⟨[⟨c, b⟩], rfl, List.forall_mem_singleton.mpr h⟩

theorem logsTolerated_enqueueResults (s : State) (bs : List Byte) : LogsTolerated s (s.enqueueResults bs) := by
  induction bs generalizing s with
  | nil => exact .of_silent rfl
  | cons b bs ih =>
    refine LogsTolerated.trans ?_ (ih (s.enqueue b false))
    obtain ⟨-, e⟩ | ⟨-, e⟩ := s.enqueue_cases b false <;> rw [e]
    · exact logsTolerated_raiseLog s rfl
    · exact .of_silent rfl

theorem logsTolerated_readBack (s : State) (bs : List Byte) :
    LogsTolerated s ((s.setDirection .read).enqueueResults bs) :=
  (LogsTolerated.of_silent (by simp)).trans (logsTolerated_enqueueResults _ bs)

theorem logsTolerated_applySync (s : State) (f : Bool) : LogsTolerated s (s.applySync f) := by
  unfold State.applySync State.logClamp
  split
  · exact logsTolerated_raiseLog s rfl
  · exact .of_silent rfl

/-- A valid transfer type makes no entry but the overflows of the results (R158, R287). -/
theorem logsTolerated_applyRdat (s : State) {x : XferType} (hx : x ≠ .invalid) (m : ModMode) :
    LogsTolerated s (s.applyRdat x m) := by
  simp only [State.applyRdat, if_neg hx, State.readOutN_eq]
  exact logsTolerated_readBack (s.latchXfer x m) _

theorem logsTolerated_startWdat (s : State) {x : XferType} (hx : x ≠ .invalid) (m : ModMode) :
    LogsTolerated s (s.startWdat x m) := by
  simp only [State.startWdat, if_neg hx]
  exact .of_silent rfl

theorem logsTolerated_applyFigd (s : State) : LogsTolerated s s.applyFigd := by
  unfold State.applyFigd
  split <;> exact logsTolerated_raiseLog s rfl

theorem logsTolerated_applyDma (s : State) (x : XferType) (m : ModMode) : LogsTolerated s (s.applyDma x m) := by
  unfold State.applyDma State.raiseDrq
  split <;> exact .of_silent rfl

theorem immediate_logsTolerated {apply : State → State} {s t : State} (ha : LogsTolerated s (apply s))
    (h : immediate apply s = .next t) : LogsTolerated s t := by
  cases h
  exact ha

theorem fixedArity_logsTolerated {n : BitVec 4} {apply : State → State} {s t : State}
    (ha : LogsTolerated s (apply s)) (h : fixedArity n apply s = .next t) : LogsTolerated s t := by
  unfold fixedArity at h
  split_ifs at h <;> cases h
  · exact .of_silent rfl
  · exact ha
  · exact .of_silent rfl

/-- The meaning of a command whose operands are valid makes tolerated log entries only, at every byte of it. -/
theorem exec_logsTolerated {i : Instr} (hv : i.operandsValid = true) {s t : State} (h : exec i s = .next t) :
    LogsTolerated s t := by
  cases i with
  | reset =>
    simp only [exec, execReset] at h
    split_ifs at h <;> cases h
    · exact .of_silent rfl
    · exact logsTolerated_applySync s false
    · exact .of_silent rfl
  | sync f => exact fixedArity_logsTolerated (apply := fun s => s.applySync f) (logsTolerated_applySync s f) h
  | cchar | zoom | pitch | curs | mask => exact fixedArity_logsTolerated (.of_silent rfl) h
  | pram p =>
    simp only [exec, execPram] at h
    split_ifs at h <;> cases h <;> exact .of_silent (by simp)
  | figs =>
    simp only [exec, execFigs] at h
    split_ifs at h <;> cases h <;> exact .of_silent (by simp)
  | wdat x m =>
    have hx : x ≠ .invalid := by simpa [Instr.operandsValid] using hv
    simp only [exec, execWdat] at h
    split_ifs at h <;> cases h
    · exact logsTolerated_startWdat s hx m
    · exact .of_silent (by simp)
    · exact .of_silent rfl
  | rdat x m =>
    have hx : x ≠ .invalid := by simpa [Instr.operandsValid] using hv
    exact immediate_logsTolerated (apply := fun s => s.applyRdat x m) (logsTolerated_applyRdat s hx m) h
  | dmar x m | dmaw x m =>
    exact immediate_logsTolerated (apply := fun s => s.applyDma x m) (logsTolerated_applyDma s x m) h
  | figd => exact immediate_logsTolerated (logsTolerated_applyFigd s) h
  | curd => exact immediate_logsTolerated (logsTolerated_readBack s _) h
  | lprd => exact immediate_logsTolerated (apply := State.applyLprd) (logsTolerated_readBack s _) h
  | gchrd => exact immediate_logsTolerated (.of_silent (by simp)) h
  | vsync _ | start | bctrl _ =>
    cases h
    exact .of_silent rfl

/-! ### Port writes -/

theorem writePortAt_commandOffset (m : PortMap) : writePortAt m (commandOffset m) = .command := by
  cases m <;> rfl

theorem writePortAt_parameterOffset (m : PortMap) : writePortAt m (parameterOffset m) = .parameter := by
  cases m <;> rfl

/-- A command byte makes no underrun entry where the command in flight is complete (R91, R96). -/
theorem portWrite_encode {s : State} (hs : s.WriteReady) (hset : s.Settled) (i : Instr) :
    portWrite (commandOffset s.cfg.portMap) (encode i) s = exec i (s.emptied.loadCommand (encode i)) := by
  have hwrite : portWrite (commandOffset s.cfg.portMap) (encode i) s = dispatchCommand (encode i) s.emptied := by
    simp only [portWrite, writePortAt_commandOffset, acceptByte_eq hs]
    rfl
  rw [hwrite, dispatchCommand_encode, State.logUnderrun_of_settled (s := s.emptied) hset]

theorem Sent.portWrite_eq {i : Instr} {n : Nat} {s : State} (h : Sent i n s) (hs : s.WriteReady)
    (ht : i.takes (n + 1) = true) (b : Byte) :
    portWrite (parameterOffset s.cfg.portMap) b s = exec i (s.emptied.storeParam b) := by
  have hwrite : portWrite (parameterOffset s.cfg.portMap) b s = dispatchParam b s.emptied := by
    simp only [portWrite, writePortAt_parameterOffset, acceptByte_eq hs]
    rfl
  rw [hwrite, Sent.dispatchParam_eq (s := s.emptied) { h with } ht]

theorem portWrite_keeps_writeReady {offset : Nat} {b : Byte} {s t : State} (hs : s.WriteReady)
    (h : portWrite offset b s = .next t) : t.WriteReady := by
  obtain ⟨d, l, rfl, -⟩ | hd := portWrite_cases hs h
  · exact hs
  · exact (hd.keeps (fun _ _ => Booked.fifoOk) (fun _ _ => effect_keeps_fifoOk) (.emptied s)).writeReady

/-! ### Runs -/

/-- With the events `es` pending first, a run from `s` through all of them leads to `t` and makes no log entry that is a
protocol violation. -/
structure Plays (es : List Event) (s t : State) : Prop where
  events : s.events = es ++ t.events
  run    : core.run es.length s = .next t
  cfg    : t.cfg = s.cfg
  ready  : s.WriteReady → t.WriteReady
  log    : LogsTolerated s t

theorem Plays.nil (s : State) : Plays [] s s := ⟨rfl, rfl, rfl, id, .of_silent rfl⟩

/-- What was pending behind `es` is pending after it. -/
theorem Plays.pending {es fs : List Event} {s t : State} (h : Plays es s t) (hev : s.events = es ++ fs) :
    t.events = fs :=
  List.append_cancel_left (h.events.symm.trans hev)

theorem Plays.append {es fs : List Event} {s t u : State} (h : Plays es s t) (h' : Plays fs t u) :
    Plays (es ++ fs) s u where
  events := by rw [h.events, h'.events, List.append_assoc]
  run    := by rw [List.length_append, run_add h.run, h'.run]
  cfg    := h'.cfg.trans h.cfg
  ready  := h'.ready ∘ h.ready
  log    := h.log.trans h'.log

/-- A port write that runs a meaning whose operands are valid, from a state with the same log. -/
theorem plays_exec {i : Instr} (hv : i.operandsValid = true) {offset : Nat} {b : Byte} {rest : List Event}
    {s u : State} (hev : s.events = .portWrite offset b :: rest)
    (hwrite : portWrite offset b { s with events := rest } = exec i u) (hout : u.out = s.out) :
    ∃ t, Plays [.portWrite offset b] s t ∧ exec i u = .next t := by
  obtain ⟨t, ht⟩ := exec_total i u
  have hnext := hwrite.trans ht
  have grows := onlyGrows_portWrite hnext
  refine ⟨t, ⟨?_, run_succ ((step_cons hev).trans hnext), grows.cfg, fun hs => ?_, ?_⟩, ht⟩
  · rw [hev, grows.events]
    rfl
  · exact portWrite_keeps_writeReady (s := { s with events := rest }) hs hnext
  · exact (LogsTolerated.of_silent (by rw [hout])).trans (exec_logsTolerated hv ht)

theorem plays_commandByte {i : Instr} (hv : i.operandsValid = true) {rest : List Event} {s : State}
    (hs : s.WriteReady) (hset : s.Settled)
    (hev : s.events = .portWrite (commandOffset s.cfg.portMap) (encode i) :: rest) :
    ∃ t, Plays [.portWrite (commandOffset s.cfg.portMap) (encode i)] s t ∧ Sent i 0 t := by
  obtain ⟨t, hplays, ht⟩ := plays_exec hv hev (portWrite_encode (s := { s with events := rest }) hs hset i) rfl
  exact ⟨t, hplays, sent_of_loadCommand ht⟩

theorem plays_paramByte {i : Instr} (hv : i.operandsValid = true) {n : Nat} {b : Byte} {rest : List Event} {s : State}
    (hs : s.WriteReady) (hsent : Sent i n s) (htakes : i.takes (n + 1) = true)
    (hev : s.events = .portWrite (parameterOffset s.cfg.portMap) b :: rest) :
    ∃ t, Plays [.portWrite (parameterOffset s.cfg.portMap) b] s t ∧ Sent i (n + 1) t := by
  have here : Sent i n { s with events := rest } := { hsent with }
  obtain ⟨t, hplays, ht⟩ := plays_exec hv hev (here.portWrite_eq hs htakes b) rfl
  exact ⟨t, hplays, Sent.of_storeParam (s := State.emptied { s with events := rest }) { hsent with } htakes ht⟩

theorem plays_params {i : Instr} (hv : i.operandsValid = true) {rest : List Event} (ps : List Byte) {n : Nat}
    {s : State} (hs : s.WriteReady) (hsent : Sent i n s) (ht : i.takes (n + ps.length) = true)
    (hev : s.events = ps.map (.portWrite (parameterOffset s.cfg.portMap)) ++ rest) :
    ∃ t, Plays (ps.map (.portWrite (parameterOffset s.cfg.portMap))) s t ∧ Sent i (n + ps.length) t := by
  induction ps generalizing n s with
  | nil => exact ⟨s, .nil s, hsent⟩
  | cons p ps ih =>
    rw [List.length_cons, Nat.add_comm ps.length, ← Nat.add_assoc] at ht
    obtain ⟨u, hu, husent⟩ := plays_paramByte hv hs hsent (Instr.takes_of_le ht (Nat.le_add_right _ _)) hev
    have hrest : u.events = ps.map (.portWrite (parameterOffset u.cfg.portMap)) ++ rest := by
      rw [hu.cfg]
      exact hu.pending hev
    obtain ⟨t, hplays, htsent⟩ := ih (hu.ready hs) husent ht hrest
    rw [hu.cfg] at hplays
    refine ⟨t, hu.append hplays, ?_⟩
    rwa [List.length_cons, Nat.add_comm ps.length, ← Nat.add_assoc]

/-- A well-formed command leaves a dispatcher whose command in flight is complete. -/
theorem plays_command {c : Command} (hc : c.wellFormed = true) {rest : List Event} {s : State} (hs : s.WriteReady)
    (hset : s.Settled) (hev : s.events = commandWrites s.cfg.portMap c ++ rest) :
    ∃ t, Plays (commandWrites s.cfg.portMap c) s t ∧ t.Settled := by
  obtain ⟨hv, hadmits⟩ : c.instr.operandsValid = true ∧ c.instr.arity.admits c.params.length = true := by
    simpa [Command.wellFormed] using hc
  obtain ⟨htakes, hcut⟩ := Instr.takes_of_admits hadmits
  obtain ⟨u, hu, husent⟩ := plays_commandByte hv hs hset hev
  have hrest : u.events = c.params.map (.portWrite (parameterOffset u.cfg.portMap)) ++ rest := by
    rw [hu.cfg]
    exact hu.pending hev
  obtain ⟨t, hplays, htsent⟩ := plays_params hv c.params (hu.ready hs) husent (by rwa [Nat.zero_add]) hrest
  rw [hu.cfg] at hplays
  rw [Nat.zero_add] at htsent
  exact ⟨t, hu.append hplays, htsent.settled hcut⟩

theorem plays_program {rest : List Event} (cs : List Command) {s : State} (hs : s.WriteReady) (hset : s.Settled)
    (hcs : ∀ c ∈ cs, c.wellFormed = true) (hev : s.events = programWrites s.cfg.portMap cs ++ rest) :
    ∃ t, Plays (programWrites s.cfg.portMap cs) s t ∧ t.Settled := by
  induction cs generalizing s with
  | nil => exact ⟨s, .nil s, hset⟩
  | cons c cs ih =>
    obtain ⟨hc, hcs⟩ := List.forall_mem_cons.mp hcs
    have hcons (m : PortMap) : programWrites m (c :: cs) = commandWrites m c ++ programWrites m cs := rfl
    rw [hcons, List.append_assoc] at hev
    obtain ⟨u, hu, huset⟩ := plays_command hc hs hset hev
    have hrest : u.events = programWrites u.cfg.portMap cs ++ rest := by
      rw [hu.cfg]
      exact hu.pending hev
    obtain ⟨t, hplays, htset⟩ := ih (hu.ready hs) huset hcs hrest
    rw [hu.cfg] at hplays
    exact ⟨t, hu.append hplays, htset⟩

/-- Settles O40: by induction on the program each command finds the one before it complete, and each of its bytes is
the command byte or a parameter that the command takes. -/
theorem wellFormedProgramsOnlyOverflow : Obligations.WellFormedProgramsOnlyOverflow := by
  intro cs s hs hset hcs
  obtain ⟨t, hplays, htset⟩ :=
    plays_program (s := s.feed (programWrites s.cfg.portMap cs)) (rest := s.events) cs hs hset hcs rfl
  obtain ⟨es, hlog, htolerated⟩ := hplays.log
  exact ⟨t, es, hplays.run, hplays.pending rfl, htset, hlog, htolerated⟩

end Sys2Proof.Machine

/-! ## The FIFO operations (R80 to R84) -/

namespace Sys2Proof.Machine

/-- Settles O4: the two cases of an enqueue. -/
theorem enqueueEffect : Obligations.EnqueueEffect := by
  intro s b c
  refine ⟨fun hfull => State.enqueue_full hfull b c,
    fun hroom => ⟨_, State.enqueue_notFull hroom b c, ?_, ?_, ?_, fun x hfe hff hdr => ?_⟩⟩
  · simp [statusGet_afterEnqueue]
  · by_cases h : s.fifo.length = 15 <;> simp [statusGet_afterEnqueue, State.status, fifoDepth, h]
  · by_cases h : s.fifoDir = .read <;> simp [statusGet_afterEnqueue, State.status, h]
  · have other := s.status_enqueue_other b c x hfe hff hdr
    rwa [State.enqueue_notFull hroom b c] at other

/-- Settles O5: the two cases of a dequeue. -/
theorem dequeueEffect : Obligations.DequeueEffect := by
  intro s
  refine ⟨State.dequeue_nil, fun e q hq =>
    ⟨_, State.dequeue_cons hq, ?_, ?_, ?_, status_afterDequeue_other s.sr q.length⟩⟩
  · simp [statusGet_afterDequeue]
  · by_cases h : q = [] <;> simp [statusGet_afterDequeue, State.status, h]
  · by_cases h : q = [] <;> simp [statusGet_afterDequeue, State.status, h]

/-- Settles O6: a direction that is already set, and one that is not. -/
theorem setDirectionEffect : Obligations.SetDirectionEffect := by
  intro s d
  refine ⟨fun h => State.setDirection_same h.symm, fun h => ?_⟩
  have switch := State.setDirection_switch (Ne.symm h)
  refine ⟨_, switch, ?_, ?_, ?_, fun x hfe hff hdr => ?_⟩
  · simp [statusGet_cleared]
  · simp [statusGet_cleared]
  · simp [statusGet_cleared]
  · have other := s.status_setDirection_other d x hfe hff hdr
    rwa [switch] at other

/-! ### FIFO traffic (R84) -/

/-- At most 16 entries, and FE and FF say when there are 0 and 16 (R11, R14): the part of `FifoOk` that every enqueue and
dequeue keeps, whatever the direction and the tags. -/
structure State.DepthOk (s : State) : Prop where
  le : s.fifo.length ≤ 16
  fe : s.status .fe = decide (s.fifo.length = 0)
  ff : s.status .ff = decide (s.fifo.length = 16)

/-- An enqueue that does not overflow sets FF exactly at the sixteenth entry (R80). -/
theorem State.DepthOk.enqueue {s : State} (hs : s.DepthOk) (hroom : s.fifo.length ≠ fifoDepth) (b : Byte) (c : Bool) :
    (s.enqueue b c).DepthOk := by
  have hlt : s.fifo.length < 16 := Nat.lt_of_le_of_ne hs.le hroom
  have hff : statusGet s.sr .ff = false := by simpa [State.status, Nat.ne_of_lt hlt] using hs.ff
  rw [State.enqueue_notFull hroom]
  exact ⟨by simpa using hlt, by simp [State.status, statusGet_afterEnqueue],
    by simp [State.status, statusGet_afterEnqueue, fifoDepth, hff]⟩

/-- A dequeue sets FE exactly when it takes the last entry (R81). -/
theorem State.DepthOk.dequeue {s : State} (hs : s.DepthOk) {e : FifoEntry} {q : List FifoEntry} (hq : s.fifo = e :: q) :
    State.DepthOk { s with fifo := q, sr := statusAfterDequeue s.sr q.length } := by
  have hlt : q.length < 16 := by simpa [hq] using hs.le
  have hfe : statusGet s.sr .fe = false := by simpa [State.status, hq] using hs.fe
  exact ⟨Nat.le_of_lt hlt, by simp [State.status, statusGet_afterDequeue, hfe],
    by simp [State.status, statusGet_afterDequeue, Nat.ne_of_lt hlt]⟩

/-- What a run of FIFO calls from `s` must satisfy: first in, first out, a consistent queue left in the same direction. -/
structure FifoRun.Lawful (s : State) (r : FifoRun) : Prop where
  order : s.fifo ++ r.accepted = r.returned ++ r.final.fifo
  depth : r.final.DepthOk
  dir   : r.final.fifoDir = s.fifoDir

theorem fifoRun_lawful (cs : List FifoCall) {s : State} (hs : s.DepthOk) : (fifoRun cs s).Lawful s := by
  induction cs generalizing s with
  | nil => exact ⟨by simp [fifoRun], hs, rfl⟩
  | cons call cs ih =>
    cases call with
    | enqueue b c =>
      by_cases hfull : s.fifo.length = fifoDepth
      · rw [fifoRun, if_pos hfull, State.enqueue_full hfull]
        have law := ih (s := s.raiseLog .fifoOverflow b) ⟨hs.le, hs.fe, hs.ff⟩
        exact ⟨law.order, law.depth, law.dir⟩
      · have law := ih (hs.enqueue hfull b c)
        rw [fifoRun, if_neg hfull]
        rw [State.enqueue_notFull hfull] at law ⊢
        exact { law with order := by simpa using law.order }
    | dequeue =>
      cases hq : s.fifo with
      | nil =>
        rw [fifoRun, State.dequeue_nil hq]
        exact ih hs
      | cons e q =>
        have law := ih (hs.dequeue hq)
        rw [fifoRun, State.dequeue_cons hq]
        exact { law with order := by simpa [hq] using law.order }

/-- Settles O7: by induction on the calls; the depth is what the order says of the lengths. -/
theorem fifoTrafficLaw : Obligations.FifoTrafficLaw := by
  intro cs s hle hfe hff
  have law := fifoRun_lawful cs (s := s) ⟨hle, hfe, hff⟩
  have depth := congrArg List.length law.order
  rw [List.length_append, List.length_append, Nat.add_comm (fifoRun cs s).returned.length] at depth
  exact ⟨law.order, depth.symm, law.depth.le, law.depth.fe, law.depth.ff, law.dir⟩

end Sys2Proof.Machine

/-! ## Port reads (R87, R88) -/

namespace Sys2Proof.Machine

theorem portRead_of_status {offset : Nat} {s : State} (h : readPortAt s.cfg.portMap offset = .status) :
    portRead offset s = s.returnByte s.sr := by
  simp only [portRead, h]

theorem portRead_of_data {offset : Nat} {s : State} (h : readPortAt s.cfg.portMap offset = .data) :
    portRead offset s = s.dataRead := by
  simp only [portRead, h]

/-- A field of the status register is the bit of its number (R13). -/
theorem status_eq_bit (s : State) (b : StatusBit) : s.status b = decide (s.sr.toNat / 2 ^ b.index % 2 = 1) :=
  Nat.testBit_eq_decide_div_mod_eq

/-- Settles O8: offset 0 reads the status register in both maps. -/
theorem statusReadEffect : Obligations.StatusReadEffect := by
  intro s rest hev
  have hport : readPortAt s.cfg.portMap 0 = .status := by simp [readPortAt]
  have hstep : step s = .next (portRead 0 { s with events := rest }) := step_cons hev
  rw [hstep, portRead_of_status (s := { s with events := rest }) hport]
  have hlpd : s.sr.toNat / 128 % 2 = s.sr.toNat / 128 := Nat.mod_eq_of_lt (by omega)
  exact ⟨rfl, by simp [status_eq_bit, StatusBit.index], status_eq_bit s .ff, status_eq_bit s .fe, status_eq_bit s .dip,
    status_eq_bit s .dma, status_eq_bit s .vsy, status_eq_bit s .hbl, hlpd ▸ status_eq_bit s .lpd⟩

/-- A data read of a READ queue returns and removes its head. -/
theorem State.dataRead_cons {s : State} {e : FifoEntry} {q : List FifoEntry} (hd : s.fifoDir = .read)
    (hq : s.fifo = e :: q) :
    s.dataRead = State.returnByte { s with fifo := q, sr := statusAfterDequeue s.sr q.length } e.byte := by
  simp only [State.dataRead, hd, State.dequeue_cons hq]

/-- A data read that finds no result byte reads the open bus. -/
theorem State.dataRead_openBus {s : State} (h : s.fifoDir = .write ∨ s.fifo = []) : s.dataRead = s.openBusRead := by
  obtain hd | hq := h
  · simp only [State.dataRead, hd]
  · simp only [State.dataRead, State.dequeue_nil hq]
    cases s.fifoDir <;> rfl

theorem State.openBusRead_fixed {s : State} {b : Byte} (h : s.cfg.openBus = .fixed b) :
    s.openBusRead = s.returnByte b := by
  simp only [State.openBusRead, h]

theorem State.openBusRead_free {s : State} (h : s.cfg.openBus = .free) :
    s.openBusRead = { s.returnByte (Config.freeOpenBus s.freeCount) with freeCount := s.freeCount + 1 } := by
  simp only [State.openBusRead, h]

/-- Settles O9: a data read is a dequeue from a READ queue or an open-bus read. -/
theorem dataReadEffect : Obligations.DataReadEffect := by
  intro s offset rest hev hport
  have hstep : step s = .next (State.dataRead { s with events := rest }) :=
    (step_cons hev).trans (congrArg _ (portRead_of_data (s := { s with events := rest }) hport))
  rw [hstep]
  refine ⟨fun e q hd hq => ⟨_, ?_, ?_, fun h => ?_, fun h => ?_, status_afterDequeue_other s.sr q.length⟩,
    fun b hbus hfixed => ?_, fun hbus hfree => ⟨Config.freeOpenBus s.freeCount, ?_⟩⟩
  · rw [State.dataRead_cons (s := { s with events := rest }) hd hq]
    rfl
  · simp [statusGet_afterDequeue]
  · simp [statusGet_afterDequeue, h]
  · simp [statusGet_afterDequeue, State.status, h]
  · rw [State.dataRead_openBus (s := { s with events := rest }) hbus,
      State.openBusRead_fixed (s := { s with events := rest }) hfixed]
    rfl
  · rw [State.dataRead_openBus (s := { s with events := rest }) hbus,
      State.openBusRead_free (s := { s with events := rest }) hfree]
    rfl

end Sys2Proof.Machine

/-! ## Dispatched port writes (R85, R86, R91, R92) -/

namespace Sys2Proof.Machine

/-- A byte at the command port is dispatched as a command, from a cleared queue in WRITE direction. -/
theorem portWrite_of_command {offset : Nat} {s : State} (hs : s.WriteReady)
    (h : writePortAt s.cfg.portMap offset = .command) (b : Byte) :
    portWrite offset b s = dispatchCommand b s.emptied := by
  simp only [portWrite, h, acceptByte_eq hs]
  rfl

/-- A byte at the parameter port is dispatched as a parameter, from a cleared queue in WRITE direction. -/
theorem portWrite_of_parameter {offset : Nat} {s : State} (hs : s.WriteReady)
    (h : writePortAt s.cfg.portMap offset = .parameter) (b : Byte) :
    portWrite offset b s = dispatchParam b s.emptied := by
  simp only [portWrite, h, acceptByte_eq hs]
  rfl

/-- The entry that the command in flight leaves in the log when a command byte abandons it (R91, R96). -/
def Dispatcher.underrun (d : Dispatcher) : List LogEntry :=
  if d.phase = .await ∧ d.incomplete = true then [⟨.paramUnderrun, d.cr⟩] else []

theorem State.logUnderrun_eq (s : State) :
    s.logUnderrun = { s with out := { s.out with log := s.out.log ++ s.disp.underrun } } := by
  unfold State.logUnderrun Dispatcher.underrun
  split
  · rfl
  · simp only [List.append_nil]

/-- The dispatcher after the command byte `b` that decodes to `i`, with `n` parameter registers (R91). -/
def Dispatcher.load (d : Dispatcher) (n : Nat) (b : Byte) (i : Instr) : Dispatcher :=
  { d with cr := b, cmd := .command i.mnemonic, pcount := 0#4, pr := prLoad n b }

/-- The dispatcher after a parameter byte (R92). -/
def Dispatcher.store (d : Dispatcher) (b : Byte) : Dispatcher :=
  { d with pcount := d.pcount + 1#4, pr := prSet d.pr (d.pcount + 1#4) b }

/-- The state after a command byte was taken from the queue and abandoned the command in flight, with `d` for what the
dispatcher has become. -/
def State.holding (s : State) (d : Dispatcher) : State :=
  { s with
    fifo := [], fifoDir := .write, sr := statusCleared s.sr, disp := d
    out := { s.out with log := s.out.log ++ s.disp.underrun } }

/-- A command byte that decodes runs the meaning of its command (R91). -/
theorem portWrite_runs_command {offset : Nat} {b : Byte} {i : Instr} {s : State} (hs : s.WriteReady)
    (hport : writePortAt s.cfg.portMap offset = .command) (hdec : decode b = .ok i) :
    portWrite offset b s = exec i (s.holding (s.disp.load s.cfg.prSize b i)) := by
  rw [portWrite_of_command hs hport, dispatchCommand, State.logUnderrun_eq, State.loadCommand, cmdOf_ok hdec]
  simp only [hdec]
  rfl

/-- A command byte that does not decode is recorded and logged (R97). -/
theorem portWrite_unknown_command {offset : Nat} {b : Byte} {e : DecodeError} {s : State} (hs : s.WriteReady)
    (hport : writePortAt s.cfg.portMap offset = .command) (hdec : decode b = .error e) :
    portWrite offset b s =
      .next (((s.emptied.logUnderrun.loadCommand b).raiseLog .unknownOpcode b).setPhase .idle) := by
  rw [portWrite_of_command hs hport, dispatchCommand]
  simp only [hdec]

theorem dispatchParam_of_idle {s : State} (h : s.disp.phase = .idle) (b : Byte) :
    dispatchParam b s = .next (s.raiseLog .strayParam b) := by
  simp only [dispatchParam, h]

theorem dispatchParam_of_await {i : Instr} {s : State} (hphase : s.disp.phase = .await) (hcr : s.disp.cr = encode i)
    (hcmd : s.disp.cmd = .command i.mnemonic) (b : Byte) : dispatchParam b s = exec i (s.storeParam b) := by
  simp only [dispatchParam, hphase, hcmd, hcr, instrOf_encode]

/-- Settles O12: a write to the command port dispatches its byte, and what was logged before is `Dispatcher.underrun`. -/
theorem stepRunsDecodedCommand : Obligations.StepRunsDecodedCommand := by
  intro s offset b rest i hs hev hport hdec
  exact (step_cons hev).trans (portWrite_runs_command (s := { s with events := rest }) hs hport hdec)

/-- Settles O13: in AWAIT the dispatcher reads the command in flight back from `cr`. -/
theorem stepRunsParameterByte : Obligations.StepRunsParameterByte := by
  intro s offset b rest i hs hev hport hphase hcr hcmd
  calc step s
      = portWrite offset b { s with events := rest } := step_cons hev
    _ = dispatchParam b (State.emptied { s with events := rest }) :=
        portWrite_of_parameter (s := { s with events := rest }) hs hport b
    _ = exec i ((State.emptied { s with events := rest }).storeParam b) :=
        dispatchParam_of_await (s := State.emptied { s with events := rest }) hphase hcr hcmd b

/-- Settles O14: the byte is recorded as one that decodes is, with its own entry and an idle dispatcher for a meaning. -/
theorem unknownCommandByteEffect : Obligations.UnknownCommandByteEffect := by
  intro s offset b rest e hs hev hport hdec
  have hcmd : cmdOf b = .invalid := by simp only [cmdOf, hdec]
  have hwrite := portWrite_unknown_command (s := { s with events := rest }) hs hport hdec
  rw [State.logUnderrun_eq, State.loadCommand, hcmd] at hwrite
  exact (step_cons hev).trans hwrite

/-- Settles O15: an idle dispatcher only logs a parameter byte. -/
theorem strayParameterEffect : Obligations.StrayParameterEffect := by
  intro s offset b rest hs hev hport hidle
  calc step s
      = portWrite offset b { s with events := rest } := step_cons hev
    _ = dispatchParam b (State.emptied { s with events := rest }) :=
        portWrite_of_parameter (s := { s with events := rest }) hs hport b
    _ = .next ((State.emptied { s with events := rest }).raiseLog .strayParam b) :=
        dispatchParam_of_idle (s := State.emptied { s with events := rest }) hidle b

end Sys2Proof.Machine

/-! ## Pending events (R8, log 2) -/

namespace Sys2Proof.Machine

/-- `s` with the events `es` pending in place of its own. -/
def State.withEvents (s : State) (es : List Event) : State := { s with events := es }

@[simp] theorem State.withEvents_disp (s : State) (es : List Event) : (s.withEvents es).disp = s.disp := rfl

/-- An operation neither reads nor moves the pending events. -/
def IgnoresEvents (f : State → State) : Prop := ∀ s es, f (s.withEvents es) = (f s).withEvents es

theorem IgnoresEvents.comp {f g : State → State} (hg : IgnoresEvents g) (hf : IgnoresEvents f) :
    IgnoresEvents (fun s => g (f s)) := fun s es => (congrArg g (hf s es)).trans (hg (f s) es)

theorem IgnoresEvents.iterate {f : State → State} (hf : IgnoresEvents f) (n : Nat) :
    IgnoresEvents (fun s => Nat.iterate f n s) := by
  induction n with
  | zero => exact fun _ _ => rfl
  | succ n ih => exact ih.comp hf

theorem ignoresEvents_foldl {α : Type} {f : State → α → State} (hf : ∀ a, IgnoresEvents (fun s => f s a))
    (l : List α) : IgnoresEvents (fun s => l.foldl f s) := by
  induction l with
  | nil => exact fun _ _ => rfl
  | cons a l ih => exact ih.comp (hf a)

theorem IgnoresEvents.ite {c : State → Prop} [DecidablePred c] {f g : State → State}
    (hc : ∀ s es, c (s.withEvents es) ↔ c s) (hf : IgnoresEvents f) (hg : IgnoresEvents g) :
    IgnoresEvents (fun s => if c s then f s else g s) := by
  intro s es
  by_cases h : c s
  · simpa only [hc, h, if_true] using hf s es
  · simpa only [hc, h, if_false] using hg s es

/-! ### The operations that branch or repeat -/

theorem ignoresEvents_enqueue (b : Byte) (c : Bool) : IgnoresEvents (fun s => s.enqueue b c) := by
  unfold State.enqueue
  exact .ite (fun _ _ => .rfl) (fun _ _ => rfl) (fun _ _ => rfl)

theorem ignoresEvents_enqueueResults (bs : List Byte) : IgnoresEvents (fun s => s.enqueueResults bs) :=
  ignoresEvents_foldl (fun b => ignoresEvents_enqueue b false) bs

theorem ignoresEvents_setDirection (d : FifoDir) : IgnoresEvents (fun s => s.setDirection d) := by
  unfold State.setDirection
  exact .ite (fun _ _ => .rfl) (fun _ _ => rfl) (fun _ _ => rfl)

theorem ignoresEvents_applySync (f : Bool) : IgnoresEvents (fun s => s.applySync f) := by
  have clamped : IgnoresEvents State.logClamp := by
    unfold State.logClamp
    exact .ite (fun _ _ => .rfl) (fun _ _ => rfl) (fun _ _ => rfl)
  have decoded : IgnoresEvents (fun s => { s with geom := syncDecode s.disp.pr, de := f }) := fun _ _ => rfl
  have rearmed : IgnoresEvents State.rearm := fun _ _ => rfl
  exact rearmed.comp (clamped.comp decoded)

theorem ignoresEvents_applyPramByte (v : Byte) : IgnoresEvents (fun s => s.applyPramByte v) := by
  unfold State.applyPramByte
  exact .ite (fun _ _ => .rfl) (fun _ _ => rfl) (fun _ _ => rfl)

theorem ignoresEvents_applyFigsGroup : IgnoresEvents State.applyFigsGroup := by
  unfold State.applyFigsGroup
  refine .ite (fun _ _ => .rfl) (fun _ _ => rfl) (.ite (fun _ _ => .rfl) (fun _ _ => rfl) ?_)
  refine .ite (fun _ _ => .rfl) (fun _ _ => rfl) (.ite (fun _ _ => .rfl) (fun _ _ => rfl) ?_)
  exact .ite (fun _ _ => .rfl) (fun _ _ => rfl) (.ite (fun _ _ => .rfl) (fun _ _ => rfl) (fun _ _ => rfl))

theorem ignoresEvents_startWdat (x : XferType) (m : ModMode) : IgnoresEvents (fun s => s.startWdat x m) := by
  unfold State.startWdat
  exact .ite (fun _ _ => .rfl) (fun _ _ => rfl) (fun _ _ => rfl)

theorem ignoresEvents_applyWdat : IgnoresEvents State.applyWdat := by
  intro s es
  cases h : s.disp.xtype <;> simp only [State.applyWdat, State.withEvents_disp, h, State.plotN_eq] <;> rfl

theorem ignoresEvents_readOut (x : XferType) : IgnoresEvents (fun s => s.readOut x) := fun s es =>
  congrArg (State.advanceEad · s.fig.dir) (ignoresEvents_enqueueResults (rdatBytes x (s.memRead s.addr.ead)) s es)

theorem ignoresEvents_applyRdat (x : XferType) (m : ModMode) : IgnoresEvents (fun s => s.applyRdat x m) := by
  have latched : IgnoresEvents (fun s => s.latchXfer x m) := fun _ _ => rfl
  have turned : IgnoresEvents State.turnForInvalid := by
    intro s es
    have hcfg : (s.withEvents es).cfg = s.cfg := rfl
    cases h : s.cfg.rdatInvalid <;> simp only [State.turnForInvalid, hcfg, h]
    exact ignoresEvents_setDirection .read s es
  intro s es
  by_cases hx : x = .invalid
  · simp only [State.applyRdat, if_pos hx]
    exact congrArg (State.raiseLog · .invalidType s.disp.cr) (turned.comp latched s es)
  · simp only [State.applyRdat, if_neg hx]
    have read := (ignoresEvents_readOut x).iterate (s.fig.dc.toNat + 1)
    exact congrArg State.clearRepeat (read.comp ((ignoresEvents_setDirection .read).comp latched) s es)

theorem ignoresEvents_applyFigd : IgnoresEvents State.applyFigd := by
  intro s es
  have hcfg : (s.withEvents es).cfg = s.cfg := rfl
  cases h : s.cfg.figdPolicy <;> simp only [State.applyFigd, hcfg, h] <;> rfl

theorem ignoresEvents_applyGchrd : IgnoresEvents State.applyGchrd := by
  have dot (on : Bool) (z : Nat) : IgnoresEvents (fun s => s.drawDot on z) := .iterate (fun _ _ => rfl) z
  have dots (pat : Byte) (z : Nat) : IgnoresEvents (fun s => s.drawDots pat z) :=
    ignoresEvents_foldl (fun b => dot (pat.getLsbD b) z) _
  have row (pat : Byte) (z : Nat) : IgnoresEvents (fun s => s.drawRow pat z) := fun s es =>
    congrArg (fun u : State => State.advanceEad { u with addr := s.addr } (rowDirection s.fig.dir)) (dots pat z s es)
  have rows (pat : Byte) (z : Nat) : IgnoresEvents (fun s => s.drawRows pat z) := (row pat z).iterate z
  exact ignoresEvents_foldl (fun r s es => rows (bankGet s.ra (BitVec.ofNat 4 (15 - r))) s.zoom.gchr.toNat s es) _

theorem ignoresEvents_applyDma (x : XferType) (m : ModMode) : IgnoresEvents (fun s => s.applyDma x m) := by
  have raised : IgnoresEvents State.raiseDrq := by
    unfold State.raiseDrq
    exact .ite (fun _ _ => .rfl) (fun _ _ => rfl) (fun _ _ => rfl)
  have marked : IgnoresEvents (fun s => (s.latchXfer x m).setStatus .dma true) := fun _ _ => rfl
  exact raised.comp marked

/-- What CURD and LPRD share: the FIFO turns to READ and result bytes are queued. -/
theorem ignoresEvents_readBack (bs : List Byte) :
    IgnoresEvents (fun s => (s.setDirection .read).enqueueResults bs) :=
  (ignoresEvents_enqueueResults bs).comp (ignoresEvents_setDirection .read)

theorem ignoresEvents_applyCurd : IgnoresEvents State.applyCurd := fun s es =>
  ignoresEvents_readBack (addrBytes s.addr.ead ++ dotBytes s.cfg.curdDadBytes s.addr.dad) s es

theorem ignoresEvents_applyLprd : IgnoresEvents State.applyLprd := by
  have detected : IgnoresEvents (fun s => s.setStatus .lpd false) := fun _ _ => rfl
  intro s es
  have hlad : (s.withEvents es).lad = s.lad := rfl
  simp only [State.applyLprd, hlad]
  exact detected.comp (ignoresEvents_readBack (addrBytes s.lad)) s es

/-! ### The meanings and the dispatcher -/

/-- An operation that answers an outcome neither reads nor moves the pending events. -/
def OutcomeIgnoresEvents (f : State → Result State) : Prop :=
  ∀ s t, f s = .next t → ∀ es, f (s.withEvents es) = .next (t.withEvents es)

theorem IgnoresEvents.next {f : State → State} (hf : IgnoresEvents f) : OutcomeIgnoresEvents (fun s => .next (f s)) := by
  intro s t h es
  cases h
  exact congrArg _ (hf s es)

theorem OutcomeIgnoresEvents.ite {c : State → Prop} [DecidablePred c] {f g : State → Result State}
    (hc : ∀ s es, c (s.withEvents es) ↔ c s) (hf : OutcomeIgnoresEvents f) (hg : OutcomeIgnoresEvents g) :
    OutcomeIgnoresEvents (fun s => if c s then f s else g s) := by
  intro s t h es
  by_cases hs : c s
  · simp only [hc, hs, if_true] at h ⊢
    exact hf s t h es
  · simp only [hc, hs, if_false] at h ⊢
    exact hg s t h es

theorem ignoresEvents_setPhase (p : Phase) : IgnoresEvents (fun s => s.setPhase p) := fun _ _ => rfl

theorem ignoresEvents_setPcount (n : BitVec 4) : IgnoresEvents (fun s => s.setPcount n) := fun _ _ => rfl

theorem immediate_ignoresEvents {apply : State → State} (ha : IgnoresEvents apply) :
    OutcomeIgnoresEvents (immediate apply) := ((ignoresEvents_setPhase .idle).comp ha).next

/-- A meaning that awaits parameter bytes and idles at the `n`-th. -/
theorem counted_ignoresEvents {n : BitVec 4} {u v w : State → State} (hu : IgnoresEvents u) (hv : IgnoresEvents v)
    (hw : IgnoresEvents w) :
    OutcomeIgnoresEvents (fun s => if s.disp.pcount = 0#4 then .next ((u s).setPhase .await)
      else if s.disp.pcount = n then .next ((v s).setPhase .idle) else .next (w s)) :=
  .ite (fun _ _ => .rfl) ((ignoresEvents_setPhase .await).comp hu).next
    (.ite (fun _ _ => .rfl) ((ignoresEvents_setPhase .idle).comp hv).next hw.next)

theorem fixedArity_ignoresEvents {n : BitVec 4} {apply : State → State} (ha : IgnoresEvents apply) :
    OutcomeIgnoresEvents (fixedArity n apply) :=
  counted_ignoresEvents (u := id) (w := id) (fun _ _ => rfl) ha (fun _ _ => rfl)

theorem execPram_ignoresEvents (p : BitVec 4) : OutcomeIgnoresEvents (execPram p) := by
  have stored : IgnoresEvents (fun s => s.applyPramByte (s.disp.par s.disp.pcount)) := fun s es =>
    ignoresEvents_applyPramByte (s.disp.par s.disp.pcount) s es
  unfold execPram
  exact .ite (fun _ _ => .rfl) (IgnoresEvents.next fun _ _ => rfl) ((ignoresEvents_setPcount 0#4).comp stored).next

theorem execWdat_ignoresEvents (x : XferType) (m : ModMode) : OutcomeIgnoresEvents (execWdat x m) := by
  unfold execWdat
  exact .ite (fun _ _ => .rfl) (ignoresEvents_startWdat x m).next
    (.ite (fun _ _ => .rfl) ((ignoresEvents_setPcount 0#4).comp ignoresEvents_applyWdat).next
      (IgnoresEvents.next (f := id) fun _ _ => rfl))

/-- No command's meaning depends on what is pending after the byte it runs for. -/
theorem exec_ignoresEvents (i : Instr) : OutcomeIgnoresEvents (exec i) := by
  cases i with
  | reset =>
    exact counted_ignoresEvents (u := State.applyReset) (w := id) (fun _ _ => rfl) (ignoresEvents_applySync false)
      fun _ _ => rfl
  | figs =>
    exact counted_ignoresEvents (u := id) (fun _ _ => rfl) ignoresEvents_applyFigsGroup ignoresEvents_applyFigsGroup
  | pram p => exact execPram_ignoresEvents p
  | wdat x m => exact execWdat_ignoresEvents x m
  | sync f => exact fixedArity_ignoresEvents (ignoresEvents_applySync f)
  | cchar | zoom | pitch | curs | mask => exact fixedArity_ignoresEvents fun _ _ => rfl
  | rdat x m => exact immediate_ignoresEvents (ignoresEvents_applyRdat x m)
  | figd => exact immediate_ignoresEvents ignoresEvents_applyFigd
  | gchrd => exact immediate_ignoresEvents ignoresEvents_applyGchrd
  | dmar x m | dmaw x m => exact immediate_ignoresEvents (ignoresEvents_applyDma x m)
  | curd => exact immediate_ignoresEvents ignoresEvents_applyCurd
  | lprd => exact immediate_ignoresEvents ignoresEvents_applyLprd
  | vsync f => exact immediate_ignoresEvents (apply := fun s => s.applyVsync f) fun _ _ => rfl
  | start => exact immediate_ignoresEvents (apply := fun s => s.setDisplayEnable true) fun _ _ => rfl
  | bctrl f => exact immediate_ignoresEvents (apply := fun s => s.setDisplayEnable f) fun _ _ => rfl

/-- A port write does what it does whatever is pending after it. -/
theorem portWrite_withEvents {offset : Nat} {b : Byte} {s t : State} (hs : s.WriteReady)
    (h : portWrite offset b s = .next t) (es : List Event) :
    portWrite offset b (s.withEvents es) = .next (t.withEvents es) := by
  cases hport : writePortAt s.cfg.portMap offset with
  | ignored =>
    rw [portWrite_of_ignored hport] at h
    rw [portWrite_of_ignored (s := s.withEvents es) hport]
    cases h
    rfl
  | command =>
    cases hdec : decode b with
    | ok i =>
      rw [portWrite_runs_command hs hport hdec] at h
      rw [portWrite_runs_command (s := s.withEvents es) hs hport hdec]
      exact exec_ignoresEvents _ _ _ h es
    | error e =>
      rw [portWrite_unknown_command hs hport hdec, State.logUnderrun_eq] at h
      rw [portWrite_unknown_command (s := s.withEvents es) hs hport hdec, State.logUnderrun_eq]
      cases h
      rfl
  | parameter =>
    rw [portWrite_of_parameter hs hport, dispatchParam] at h
    rw [portWrite_of_parameter (s := s.withEvents es) hs hport, dispatchParam]
    have hdisp : (s.withEvents es).emptied.disp = s.emptied.disp := rfl
    rw [hdisp]
    cases hphase : s.emptied.disp.phase with
    | idle =>
      simp only [hphase] at h ⊢
      cases h
      rfl
    | await =>
      simp only [hphase] at h ⊢
      cases hcmd : s.emptied.disp.cmd with
      | command name =>
        simp only [hcmd] at h ⊢
        exact exec_ignoresEvents _ _ _ h es
      | none | invalid =>
        simp only [hcmd] at h ⊢
        cases h
        rfl

/-! ### Events handled one after another -/

/-- Whatever is pending behind the events `es`, handling them leads from `s` to `t`. -/
def Delivers (es : List Event) (s t : State) : Prop :=
  ∀ fs, core.run es.length (s.withEvents (es ++ fs)) = .next (t.withEvents fs)

theorem Delivers.append {es fs : List Event} {s t u : State} (h : Delivers es s t) (h' : Delivers fs t u) :
    Delivers (es ++ fs) s u := by
  intro gs
  rw [List.length_append, List.append_assoc, run_add (h (fs ++ gs))]
  exact h' gs

theorem delivers_portWrite {offset : Nat} {b : Byte} {s t : State} (hs : s.WriteReady)
    (h : portWrite offset b s = .next t) : Delivers [.portWrite offset b] s t := by
  intro fs
  have hstep : step (s.withEvents (.portWrite offset b :: fs)) = portWrite offset b (s.withEvents fs) :=
    step_cons (s := s.withEvents (.portWrite offset b :: fs)) rfl
  exact run_succ (hstep.trans (portWrite_withEvents hs h fs))

/-- A run of the model in which the events come before those that `s` has pending. -/
theorem Delivers.run_feed {es : List Event} {s t : State} (h : Delivers es s t) :
    core.run es.length (s.feed es) = .next (t.withEvents s.events) := h s.events

theorem commandWrites_length (m : PortMap) (i : Instr) (ps : List Byte) :
    (commandWrites m ⟨i, ps⟩).length = 1 + ps.length := by
  simp [commandWrites, Nat.add_comm]

theorem commandWrites_append (m : PortMap) (i : Instr) (ps : List Byte) (p : Byte) :
    commandWrites m ⟨i, ps ++ [p]⟩ = commandWrites m ⟨i, ps⟩ ++ [.portWrite (parameterOffset m) p] := by
  simp [commandWrites]

end Sys2Proof.Machine

/-! ## Abandoned commands (R91, R96) -/

namespace Sys2Proof

/-- A command that is cut short takes one more parameter byte. -/
theorem Instr.takes_succ_of_cutShort {i : Instr} {n : Nat} (ht : i.takes n = true) (hc : i.cutShort n = true) :
    i.takes (n + 1) = true := by
  cases i with
  | wdat x _ => cases x <;> simp_all [Instr.takes, Instr.cutShort]
  | _ => simp_all [Instr.takes, Instr.cutShort] <;> omega

namespace Machine

/-- Whatever `s` is, the command byte of `i` and parameter bytes that `i` takes are dispatched one by one. -/
theorem delivers_sent {i : Instr} {s : State} (hs : s.WriteReady) {ps : List Byte} (ht : i.takes ps.length = true) :
    ∃ u, Delivers (commandWrites s.cfg.portMap ⟨i, ps⟩) s u ∧ Sent i ps.length u ∧ u.WriteReady ∧ u.cfg = s.cfg := by
  induction ps using List.reverseRecOn with
  | nil =>
    obtain ⟨t, hrun⟩ := exec_total i (s.holding (s.disp.load s.cfg.prSize (encode i) i))
    have hwrite := (portWrite_runs_command hs (writePortAt_commandOffset _) (decode_encode i)).trans hrun
    exact ⟨t, delivers_portWrite hs hwrite, exec_sent rfl rfl ⟨i.takes_zero, rfl, nofun, nofun⟩ hrun,
      portWrite_keeps_writeReady hs hwrite, (onlyGrows_portWrite hwrite).cfg⟩
  | append_singleton ps p ih =>
    rw [List.length_append, List.length_singleton] at ht ⊢
    obtain ⟨u, hu, hsent, hready, hcfg⟩ := ih (Instr.takes_of_le ht (Nat.le_add_right _ _))
    obtain ⟨t, hrun⟩ := exec_total i (u.emptied.storeParam p)
    have hwrite := (hsent.portWrite_eq hready ht p).trans hrun
    rw [commandWrites_append, ← hcfg]
    rw [← hcfg] at hu
    exact ⟨t, hu.append (delivers_portWrite hready hwrite),
      Sent.of_storeParam (s := u.emptied) { hsent with } ht hrun,
      portWrite_keeps_writeReady hready hwrite, (onlyGrows_portWrite hwrite).cfg⟩

/-- What the next command byte logs of the command in flight: an underrun exactly when the command is cut short. -/
theorem Sent.underrun {i : Instr} {n : Nat} {s : State} (h : Sent i n s) (ht : i.takes n = true) :
    s.disp.underrun = if i.cutShort n = true then [⟨.paramUnderrun, encode i⟩] else [] := by
  have hiff : (s.disp.phase = .await ∧ s.disp.incomplete = true) ↔ i.cutShort n = true := by
    constructor
    · rintro ⟨hp, hinc⟩
      rwa [h.incomplete hp] at hinc
    · intro hc
      have hp := h.awaits (Instr.takes_succ_of_cutShort ht hc)
      exact ⟨hp, (h.incomplete hp).trans hc⟩
  simp only [Dispatcher.underrun, hiff, h.cr]

/-- From `s` to `t` log entries were added, and none of them is an underrun. -/
def LogsNoUnderrun (s t : State) : Prop :=
  ∃ es, t.out.log = s.out.log ++ es ∧ ∀ e ∈ es, e.code ≠ .paramUnderrun

theorem LogsTolerated.logsNoUnderrun {s t : State} (h : LogsTolerated s t) : LogsNoUnderrun s t := by
  obtain ⟨es, hlog, htolerated⟩ := h
  refine ⟨es, hlog, fun e he hcode => ?_⟩
  have := htolerated e he
  simp [LogEntry.tolerated, hcode] at this

theorem logsNoUnderrun_raiseLog (s : State) {c : LogCode} (b : Byte) (hc : c ≠ .paramUnderrun) :
    LogsNoUnderrun s (s.raiseLog c b) :=
  ⟨[⟨c, b⟩], rfl, List.forall_mem_singleton.mpr hc⟩

/-- No meaning logs an underrun: with invalid operands WDAT and RDAT log the type (R68), and every other entry is
tolerated. -/
theorem exec_logsNoUnderrun {i : Instr} {s t : State} (h : exec i s = .next t) : LogsNoUnderrun s t := by
  by_cases hv : i.operandsValid = true
  · exact (exec_logsTolerated hv h).logsNoUnderrun
  · cases i with
    | wdat x m =>
      obtain rfl : x = .invalid := by simpa [Instr.operandsValid] using hv
      simp only [exec, execWdat] at h
      split_ifs at h <;> cases h
      · exact logsNoUnderrun_raiseLog (s.latchXfer .invalid m) _ (by decide)
      · exact (LogsTolerated.of_silent (by simp)).logsNoUnderrun
      · exact (LogsTolerated.of_silent rfl).logsNoUnderrun
    | rdat x m =>
      obtain rfl : x = .invalid := by simpa [Instr.operandsValid] using hv
      cases h
      exact ⟨[⟨.invalidType, s.disp.cr⟩], by simp [State.applyRdat], by simp⟩
    | _ => exact absurd rfl hv

/-- A command byte logs the abandoned command, if it is incomplete, and then no underrun. -/
theorem portWrite_command_log {offset : Nat} {b : Byte} {s t : State} (hs : s.WriteReady)
    (hport : writePortAt s.cfg.portMap offset = .command) (h : portWrite offset b s = .next t) :
    ∃ es, t.out.log = s.out.log ++ s.disp.underrun ++ es ∧ ∀ e ∈ es, e.code ≠ .paramUnderrun := by
  cases hdec : decode b with
  | ok i =>
    rw [portWrite_runs_command hs hport hdec] at h
    exact exec_logsNoUnderrun h
  | error e =>
    rw [portWrite_unknown_command hs hport hdec, State.logUnderrun_eq] at h
    cases h
    exact ⟨[⟨.unknownOpcode, b⟩], rfl, by simp⟩

/-- Settles O60: the bytes of the command leave a dispatcher that counts them, whose incompleteness is `Instr.cutShort`;
the next command byte logs that first. -/
theorem abandonedCommandsAreLogged : Obligations.AbandonedCommandsAreLogged := by
  intro s i ps b hs ht
  obtain ⟨u, hu, hsent, hready, hcfg⟩ := delivers_sent hs ht
  obtain ⟨t, hwrite⟩ := handleEvent_total (.portWrite (commandOffset s.cfg.portMap) b) u
  have hport : writePortAt u.cfg.portMap (commandOffset s.cfg.portMap) = .command := by
    rw [hcfg]
    exact writePortAt_commandOffset _
  obtain ⟨es, hlog, hes⟩ := portWrite_command_log hready hport hwrite
  have all := (hu.append (delivers_portWrite hready hwrite)).run_feed
  rw [List.length_append, commandWrites_length, List.length_singleton, Nat.add_right_comm] at all
  have sent := hu.run_feed
  rw [commandWrites_length] at sent
  rw [hsent.underrun ht] at hlog
  exact ⟨_, _, es, sent, all, hlog, hes⟩

end Machine

end Sys2Proof

/-! ## Commands of fixed arity (R63, R93, R96, R289) -/

namespace Sys2Proof.Machine

/-! ### The meaning of a fixed-arity command -/

/-- Such a meaning is `fixedArity` of an operation that leaves the dispatcher alone. -/
theorem exec_fixed {i : Instr} {n : Nat} (h : i.arity = .fixed n) :
    (0 < n ∧ n ≤ 8) ∧ ∃ apply : State → State,
      (∀ s, exec i s = fixedArity (BitVec.ofNat 4 n) apply s) ∧ ∀ s, (apply s).disp = s.disp := by
  cases i with
  | sync f =>
    cases h
    exact ⟨by decide, fun s => s.applySync f, fun _ => rfl, fun s => by simp⟩
  | cchar | zoom | pitch | curs | mask =>
    cases h
    exact ⟨by decide, _, fun _ => rfl, fun _ => rfl⟩
  | wdat x m => cases x <;> cases h
  | _ => cases h

theorem exec_fixed_start {i : Instr} {n : Nat} (h : i.arity = .fixed n) {s : State} (h0 : s.disp.pcount = 0#4) :
    exec i s = .next (s.setPhase .await) := by
  obtain ⟨-, apply, hexec, -⟩ := exec_fixed h
  rw [hexec, fixedArity, if_pos h0]

theorem exec_fixed_wait {i : Instr} {n : Nat} (h : i.arity = .fixed n) {s : State} (hpos : 0 < s.disp.pcount.toNat)
    (hlt : s.disp.pcount.toNat < n) : exec i s = .next s := by
  obtain ⟨⟨-, hn⟩, apply, hexec, -⟩ := exec_fixed h
  have h0 : s.disp.pcount ≠ 0#4 := by bv_omega
  have hlast : s.disp.pcount ≠ BitVec.ofNat 4 n := by bv_omega
  rw [hexec, fixedArity, if_neg h0, if_neg hlast]

theorem exec_fixed_last {i : Instr} {n : Nat} (h : i.arity = .fixed n) {s : State} (hn : s.disp.pcount.toNat = n) :
    ∃ t, exec i s = .next t ∧ t.disp = { s.disp with phase := .idle } := by
  obtain ⟨⟨hpos, hle⟩, apply, hexec, hdisp⟩ := exec_fixed h
  have h0 : s.disp.pcount ≠ 0#4 := by bv_omega
  have hlast : s.disp.pcount = BitVec.ofNat 4 n := by bv_omega
  refine ⟨(apply s).setPhase .idle, ?_, by rw [State.setPhase_disp, hdisp]⟩
  rw [hexec, fixedArity, if_neg h0, if_pos hlast]

/-! ### The parameter registers while bytes arrive -/

/-- `d` awaits the rest of `i` with the bytes `ps` in its parameter registers, and is `d₀` in all that a command byte and
parameter bytes do not write (R16 to R18, R28, R91, R92). -/
structure Dispatcher.AwaitsWith (d₀ : Dispatcher) (i : Instr) (ps : List Byte) (d : Dispatcher) : Prop where
  phase  : d.phase = .await
  cr     : d.cr = encode i
  cmd    : d.cmd = .command i.mnemonic
  pcount : d.pcount.toNat = ps.length
  raPtr  : d.raPtr = d₀.raPtr
  xtype  : d.xtype = d₀.xtype
  mod    : d.mod = d₀.mod
  size   : 12 ≤ d.pr.length
  pr     : ∀ k, prGet d.pr k = (encode i :: ps).getD k.toNat 0#8

theorem Dispatcher.awaitsWith_load (d : Dispatcher) (c : Config) (i : Instr) :
    d.AwaitsWith i [] { d.load c.prSize (encode i) i with phase := .await } := by
  refine ⟨rfl, rfl, rfl, rfl, rfl, rfl, rfl, ?_, fun k => ?_⟩
  · show 12 ≤ (prLoad c.prSize (encode i)).length
    rw [prLoad_length]
    exact Nat.le_add_right 12 _
  · show prGet (prLoad c.prSize (encode i)) k = _
    rw [prGet_prLoad]
    by_cases hk : k = 0#4
    · simp [hk]
    · have hpos : 1 ≤ k.toNat := by bv_omega
      rw [if_neg hk, List.getD_eq_default _ _ hpos]

theorem Dispatcher.AwaitsWith.store {d₀ d : Dispatcher} {i : Instr} {ps : List Byte} (h : d₀.AwaitsWith i ps d)
    (hlt : ps.length < 11) (p : Byte) : d₀.AwaitsWith i (ps ++ [p]) (d.store p) := by
  have hcount := h.pcount
  have hnext : (d.pcount + 1#4).toNat = ps.length + 1 := by bv_omega
  refine { h with pcount := ?_, size := ?_, pr := fun k => ?_ }
  · rw [List.length_append]
    exact hnext
  · simpa [Dispatcher.store] using h.size
  · show prGet (prSet d.pr (d.pcount + 1#4) p) k = _
    by_cases hk : k = d.pcount + 1#4
    · have hsize := h.size
      rw [prGet_prSet _ _ (by rw [hk]; omega), if_pos hk, hk, hnext]
      simp
    · have hne : k.toNat ≠ ps.length + 1 := fun e => hk (BitVec.eq_of_toNat_eq (e.trans hnext.symm))
      rw [prGet_prSet_ne _ _ hk, h.pr, ← List.cons_append]
      simp only [List.getD, List.getElem?_append, List.length_cons]
      split
      · rfl
      · rw [List.getElem?_eq_none (by simp; omega), List.getElem?_eq_none (by simp; omega)]

/-- The `k`-th parameter register holds the `k`-th byte, and 0 while that has not arrived. -/
theorem Dispatcher.AwaitsWith.param {d₀ d : Dispatcher} {i : Instr} {ps : List Byte} (h : d₀.AwaitsWith i ps d)
    {k : BitVec 4} (hk : k ≠ 0#4) : prGet d.pr k = ps.getD (k.toNat - 1) 0#8 := by
  obtain ⟨m, hm⟩ : ∃ m, k.toNat = m + 1 := Nat.exists_eq_succ_of_ne_zero fun e => hk (BitVec.eq_of_toNat_eq e)
  rw [h.pr, hm, List.getD_cons_succ, Nat.add_sub_cancel]

/-- Below its count a fixed-arity command is incomplete (R91). -/
theorem Dispatcher.AwaitsWith.incomplete {d₀ d : Dispatcher} {i : Instr} {n : Nat} {ps : List Byte}
    (h : d₀.AwaitsWith i ps d) (hi : i.arity = .fixed n) (hlt : ps.length < n) : d.incomplete = true := by
  rw [← h.pcount] at hlt
  rw [Dispatcher.incomplete, h.cmd]
  cases i with
  | sync _ | cchar | zoom | pitch | curs | mask =>
    cases hi
    exact decide_eq_true hlt
  | wdat x _ => cases x <;> cases hi
  | _ => cases hi

/-! ### The writes of the command -/

theorem State.emptied_holding (s : State) (d : Dispatcher) : (s.holding d).emptied = s.holding d := by
  simp only [State.emptied, State.holding, status_cleared_cleared]

/-- In AWAIT a byte at the parameter port is stored and runs the meaning (R92). -/
theorem portWrite_holding {d₀ d : Dispatcher} {i : Instr} {ps : List Byte} (h : d₀.AwaitsWith i ps d) (s : State)
    (p : Byte) :
    portWrite (parameterOffset s.cfg.portMap) p (s.holding d) = exec i (s.holding (d.store p)) := by
  have hwrite := portWrite_of_parameter (s := s.holding d) (fun _ => rfl) (writePortAt_parameterOffset s.cfg.portMap) p
  rw [State.emptied_holding] at hwrite
  exact hwrite.trans (dispatchParam_of_await (s := s.holding d) h.phase h.cr h.cmd p)

/-- Below its count a fixed-arity command has changed nothing but the dispatcher, and the log of the command that its
command byte abandoned. -/
theorem delivers_holding {i : Instr} {n : Nat} (hi : i.arity = .fixed n) {s : State} (hs : s.WriteReady)
    {ps : List Byte} (hlt : ps.length < n) :
    ∃ d, s.disp.AwaitsWith i ps d ∧ Delivers (commandWrites s.cfg.portMap ⟨i, ps⟩) s (s.holding d) := by
  obtain ⟨⟨-, hn⟩, -⟩ := exec_fixed hi
  induction ps using List.reverseRecOn with
  | nil =>
    refine ⟨_, s.disp.awaitsWith_load s.cfg i, delivers_portWrite hs ?_⟩
    rw [portWrite_runs_command hs (writePortAt_commandOffset _) (decode_encode i), exec_fixed_start hi rfl]
    rfl
  | append_singleton ps p ih =>
    rw [List.length_append, List.length_singleton] at hlt
    obtain ⟨d, hd, hrun⟩ := ih (by omega)
    have hstore := hd.store (by omega) p
    have hcount : (d.store p).pcount.toNat = ps.length + 1 := by simpa using hstore.pcount
    refine ⟨_, hstore, ?_⟩
    rw [commandWrites_append]
    refine hrun.append (delivers_portWrite (fun _ => rfl) ?_)
    rw [portWrite_holding hd]
    exact exec_fixed_wait hi (hcount ▸ Nat.succ_pos _) (hcount ▸ hlt)

/-- The last byte of a fixed-arity command is stored as the others are, and runs the meaning that applies it. -/
theorem delivers_applied {i : Instr} {n : Nat} (hi : i.arity = .fixed n) {s : State} (hs : s.WriteReady)
    {ps : List Byte} (hn : ps.length = n) :
    ∃ d t, s.disp.AwaitsWith i ps d ∧ Delivers (commandWrites s.cfg.portMap ⟨i, ps⟩) s t
      ∧ exec i (s.holding d) = .next t ∧ t.disp = { d with phase := .idle } := by
  obtain ⟨⟨hpos, hle⟩, -⟩ := exec_fixed hi
  obtain rfl | ⟨qs, p, rfl⟩ := ps.eq_nil_or_concat'
  · exact absurd hn hpos.ne
  rw [List.length_append, List.length_singleton] at hn
  obtain ⟨d, hd, hrun⟩ := delivers_holding hi hs (ps := qs) (by omega)
  have hstore := hd.store (by omega) p
  have hcount : (d.store p).pcount.toNat = n := by simpa [hn] using hstore.pcount
  obtain ⟨t, ht, hdisp⟩ := exec_fixed_last hi (s := s.holding (d.store p)) hcount
  refine ⟨_, t, hstore, ?_, ht, hdisp⟩
  rw [commandWrites_append]
  exact hrun.append (delivers_portWrite (fun _ => rfl) ((portWrite_holding hd s p).trans ht))

/-- Settles O16: by induction on the parameter bytes the command is held in the dispatcher until the last one, whose step
runs the meaning from the state that holds them all. -/
theorem fixedArityCommandsApplyOnce : Obligations.FixedArityCommandsApplyOnce := by
  intro s i n ps hs hi hle
  obtain hlt | hn := Nat.lt_or_eq_of_le hle
  · obtain ⟨d, hd, hrun⟩ := delivers_holding hi hs hlt
    have sent := hrun.run_feed
    rw [commandWrites_length] at sent
    exact ⟨d, hd.phase, hd.cr, hd.cmd, hd.pcount, hd.raPtr, hd.xtype, hd.mod, hd.pr 0#4, fun _ => hd.param,
      fun _ => ⟨sent, hd.incomplete hi hlt⟩, fun hn => absurd hn hlt.ne⟩
  · obtain ⟨d, t, hd, hrun, hexec, hdisp⟩ := delivers_applied hi hs hn
    have sent := hrun.run_feed
    rw [commandWrites_length] at sent
    exact ⟨d, hd.phase, hd.cr, hd.cmd, hd.pcount, hd.raPtr, hd.xtype, hd.mod, hd.pr 0#4, fun _ => hd.param,
      fun hlt => absurd hn hlt.ne,
      fun _ => ⟨t.withEvents s.events, sent, exec_ignoresEvents i _ t hexec s.events, hdisp⟩⟩

end Sys2Proof.Machine

/-! ## The bits of the parameter bytes, as numbers (R6, R64) -/

namespace Sys2Proof.Machine

/-- The bits `hi` down to `lo` of a quantity. -/
theorem toNat_field {w : Nat} (x : BitVec w) (hi lo : Nat) :
    (x.extractLsb hi lo).toNat = x.toNat / 2 ^ lo % 2 ^ (hi - lo + 1) := by
  rw [BitVec.extractLsb_toNat, Nat.shiftRight_eq_div_pow]

/-- A field stored as its value plus 1, in a register of more bits, so that nothing is lost. -/
theorem toNat_field_succ {w v : Nat} (x : BitVec w) {hi lo : Nat} (hv : hi - lo + 1 < v) :
    ((x.extractLsb hi lo).setWidth v + 1#v).toNat = x.toNat / 2 ^ lo % 2 ^ (hi - lo + 1) + 1 := by
  have hfield : x.toNat / 2 ^ lo % 2 ^ (hi - lo + 1) < 2 ^ (hi - lo + 1) := Nat.mod_lt _ (Nat.two_pow_pos _)
  have hroom : 2 ^ (hi - lo + 1) < 2 ^ v := Nat.pow_lt_pow_right (by decide) hv
  rw [BitVec.toNat_add, BitVec.toNat_setWidth, BitVec.toNat_one (by omega), toNat_field,
    Nat.mod_eq_of_lt (hfield.trans hroom), Nat.mod_eq_of_lt (by omega)]

/-- Two quantities side by side, `x` the more significant. -/
theorem toNat_append_mul {v w : Nat} (x : BitVec v) (y : BitVec w) :
    (x ++ y).toNat = 2 ^ w * x.toNat + y.toNat := by
  rw [BitVec.toNat_append, ← Nat.shiftLeft_add_eq_or_of_lt y.isLt, Nat.shiftLeft_eq, Nat.mul_comm]

/-- One bit of a quantity. -/
theorem getLsbD_eq_decide {w : Nat} (x : BitVec w) (k : Nat) :
    x.getLsbD k = decide (x.toNat / 2 ^ k % 2 = 1) := Nat.testBit_eq_decide_div_mod_eq

/-! ### The layout of SYNC (R112) -/

section
variable (pr : List Byte)

theorem syncDecode_aw : (syncDecode pr).aw.toNat = (prGet pr 2#4).toNat + 2 := by
  simp only [syncDecode]
  bv_omega

theorem syncDecode_hs : (syncDecode pr).hs.toNat = (prGet pr 3#4).toNat % 32 + 1 :=
  (toNat_field_succ (prGet pr 3#4) (by decide)).trans (by omega)

theorem syncDecode_vs :
    (syncDecode pr).vs.toNat = 8 * ((prGet pr 4#4).toNat % 4) + (prGet pr 3#4).toNat / 32 :=
  (toNat_append_mul _ _).trans (by simp only [toNat_field]; omega)

theorem syncDecode_hfp : (syncDecode pr).hfp.toNat = (prGet pr 4#4).toNat / 4 + 1 :=
  (toNat_field_succ (prGet pr 4#4) (by decide)).trans (by omega)

theorem syncDecode_hbp : (syncDecode pr).hbp.toNat = (prGet pr 5#4).toNat % 64 + 1 :=
  (toNat_field_succ (prGet pr 5#4) (by decide)).trans (by omega)

theorem syncDecode_vfp : (syncDecode pr).vfp.toNat = (prGet pr 6#4).toNat % 64 :=
  (toNat_field (prGet pr 6#4) 5 0).trans (by omega)

theorem syncDecode_al :
    (syncDecode pr).al.toNat = 256 * ((prGet pr 8#4).toNat % 4) + (prGet pr 7#4).toNat :=
  (toNat_append_mul _ _).trans (by simp only [toNat_field]; omega)

theorem syncDecode_vbp : (syncDecode pr).vbp.toNat = (prGet pr 8#4).toNat / 4 :=
  (toNat_field (prGet pr 8#4) 7 2).trans (by omega)

/-- A SYNC leaves a horizontal total of at least 5, so that only the vertical one can be clamped (R113, R222). -/
theorem syncDecode_totals :
    (5 ≤ (syncDecode pr).htc ∧ (syncDecode pr).htc ≤ 417) ∧ 1 ≤ (syncDecode pr).vtc ∧ (syncDecode pr).vtc ≤ 1180 := by
  simp only [Geometry.htc, Geometry.hTotal, Geometry.vtc, Geometry.vTotal]
  simp only [syncDecode_aw, syncDecode_hs, syncDecode_hfp, syncDecode_hbp]
  omega

end

/-! ### The layouts of CCHAR and ZOOM (R115, R118) -/

section
variable (pr : List Byte)

theorem ccharDecode_lr : (ccharDecode pr).lr.toNat = (prGet pr 1#4).toNat % 32 + 1 :=
  (toNat_field_succ (prGet pr 1#4) (by decide)).trans (by omega)

theorem ccharDecode_dc : (ccharDecode pr).dc = decide (128 ≤ (prGet pr 1#4).toNat) :=
  (getLsbD_eq_decide (prGet pr 1#4) 7).trans (decide_eq_decide.mpr (by omega))

theorem ccharDecode_ctop : (ccharDecode pr).ctop.toNat = (prGet pr 2#4).toNat % 32 :=
  (toNat_field (prGet pr 2#4) 4 0).trans (by omega)

theorem ccharDecode_sc : (ccharDecode pr).sc = decide ((prGet pr 2#4).toNat / 32 % 2 = 1) :=
  getLsbD_eq_decide (prGet pr 2#4) 5

theorem ccharDecode_br :
    (ccharDecode pr).br.toNat = 4 * ((prGet pr 3#4).toNat % 8) + (prGet pr 2#4).toNat / 64 :=
  (toNat_append_mul _ _).trans (by simp only [toNat_field]; omega)

theorem ccharDecode_cbot : (ccharDecode pr).cbot.toNat = (prGet pr 3#4).toNat / 8 :=
  (toNat_field (prGet pr 3#4) 7 3).trans (by omega)

end

theorem zoomDecode_disp (p : Byte) : (zoomDecode p).disp.toNat = p.toNat / 16 + 1 :=
  (toNat_field_succ p (by decide)).trans (by omega)

theorem zoomDecode_gchr (p : Byte) : (zoomDecode p).gchr.toNat = p.toNat % 16 + 1 :=
  (toNat_field_succ p (by decide)).trans (by omega)

end Sys2Proof.Machine

/-! ## Display control (R110 to R119, R135) -/

namespace Sys2Proof.Machine

/-- A fixed-arity meaning at its last parameter (R93). -/
theorem fixedArity_last {n : BitVec 4} (apply : State → State) {s : State} (hpos : n ≠ 0#4) (hn : s.disp.pcount = n) :
    fixedArity n apply s = .next ((apply s).setPhase .idle) := by
  rw [fixedArity, if_neg (hn ▸ hpos), if_pos hn]

/-- Settles O19: each of the three is applied at its command byte. -/
theorem modeSwitchesComplete : Obligations.ModeSwitchesComplete := by
  intro s f
  refine ⟨?_, rfl, rfl⟩
  cases f with
  | false => rfl
  | true => rfl

/-- Settles O20: the third parameter applies the layout of CCHAR. -/
theorem ccharCompletes : Obligations.CcharCompletes := by
  intro s hn
  have hexec : exec .cchar s = .next (s.applyCchar.setPhase .idle) := fixedArity_last State.applyCchar (by decide) hn
  exact ⟨ccharDecode s.disp.pr, hexec, ccharDecode_lr _, ccharDecode_dc _, ccharDecode_ctop _, ccharDecode_sc _,
    ccharDecode_br _, ccharDecode_cbot _⟩

/-- Settles O21: the last parameter applies the layout of each command. -/
theorem zoomPitchAndMaskComplete : Obligations.ZoomPitchAndMaskComplete := by
  intro s
  refine ⟨fun hn => ⟨zoomDecode (s.disp.par 1#4), ?_, zoomDecode_disp _, zoomDecode_gchr _⟩,
    fun hn => ⟨s.disp.par 1#4, ?_, rfl⟩, fun hn => ⟨wordOf (s.disp.par 1#4) (s.disp.par 2#4), ?_, ?_⟩⟩
  · exact fixedArity_last State.applyZoom (by decide) hn
  · exact fixedArity_last State.applyPitch (by decide) hn
  · exact fixedArity_last State.applyMask (by decide) hn
  · rw [toNat_wordOf, Nat.mul_comm, Nat.add_comm]
    rfl

/-! ### SYNC (R111 to R113, R222, R228) -/

/-- Everything the decode of a SYNC does: the geometry, the display enable, the rearm, and the entry for a vertical total
of 0. -/
theorem State.applySync_eq (s : State) (f : Bool) :
    s.applySync f =
      { s with
        geom := syncDecode s.disp.pr, de := f
        raster := { s.raster with hnext := 0#9, vnext := 0#11, vwait := false }
        out := { s.out with
          log := s.out.log ++ if (syncDecode s.disp.pr).vTotal = 0 then [⟨.configClamp, 0#8⟩] else [] } } := by
  by_cases h : (syncDecode s.disp.pr).vTotal = 0
  · simp only [State.applySync, State.logClamp, h, if_true]
    rfl
  · simp only [State.applySync, State.logClamp, h, if_false, List.append_nil]
    rfl

theorem exec_sync_last {s : State} (f : Bool) (hn : s.disp.pcount = 8#4) :
    exec (.sync f) s = .next ((s.applySync f).setPhase .idle) :=
  fixedArity_last (fun s => s.applySync f) (by decide) hn

/-- Settles O18: the eighth parameter applies the layout of SYNC. -/
theorem syncCompletes : Obligations.SyncCompletes := by
  intro s f hn
  obtain ⟨⟨hmin, hmax⟩, vmin, vmax⟩ := syncDecode_totals s.disp.pr
  have hexec := exec_sync_last f hn
  rw [State.applySync_eq] at hexec
  exact ⟨syncDecode s.disp.pr, hexec, rfl, syncDecode_aw _, syncDecode_hs _, syncDecode_vs _, syncDecode_hfp _,
    syncDecode_hbp _, syncDecode_vfp _, syncDecode_al _, syncDecode_vbp _, hmin, hmax, vmin, vmax⟩

/-! ### RESET (R95, R110, R282) -/

theorem exec_reset_first {s : State} (h0 : s.disp.pcount = 0#4) :
    exec .reset s = .next (s.applyReset.setPhase .await) := if_pos h0

theorem exec_reset_last {s : State} (h8 : s.disp.pcount = 8#4) :
    exec .reset s = .next ((s.applySync false).setPhase .idle) := by
  have h0 : s.disp.pcount ≠ 0#4 := h8 ▸ by decide
  rw [exec, execReset, if_neg h0, if_pos h8]

theorem exec_reset_between {s : State} (h0 : s.disp.pcount ≠ 0#4) (h8 : s.disp.pcount ≠ 8#4) :
    exec .reset s = .next s := by
  rw [exec, execReset, if_neg h0, if_neg h8]

/-- The parameter RAM after the reset part of RESET. -/
theorem bankGet_applyReset (s : State) (k : BitVec 4) :
    bankGet s.applyReset.ra k =
      if k = 3#4 then s.cfg.resetRa3 else if k.toNat < 4 then 0#8 else bankGet s.ra k := by
  simp only [State.applyReset, bankGet_bankSet]
  by_cases hlow : k.toNat < 4
  · have hcases : k = 0#4 ∨ k = 1#4 ∨ k = 2#4 ∨ k = 3#4 := by bv_omega
    rcases hcases with rfl | rfl | rfl | rfl <;> rfl
  · have hne : ∀ j : BitVec 4, j.toNat < 4 → k ≠ j := fun j hj e => hlow (e ▸ hj)
    simp [hne, hlow]

/-- What the command byte of RESET leaves: the bookkeeping of the dispatched byte, and the reset part. -/
def State.resetSent (s : State) : State :=
  ((s.holding (s.disp.load s.cfg.prSize (encode .reset) .reset)).applyReset).setPhase .await

theorem delivers_reset {s : State} (hs : s.WriteReady) :
    Delivers (commandWrites s.cfg.portMap ⟨.reset, []⟩) s s.resetSent := by
  apply delivers_portWrite hs
  rw [portWrite_runs_command hs (writePortAt_commandOffset _) (decode_encode .reset)]
  exact exec_reset_first rfl

/-- RESET at its command byte is not incomplete, so the next command byte logs nothing of it (R91, R95). -/
theorem State.resetSent_underrun (s : State) : s.resetSent.disp.underrun = [] := rfl

theorem State.applyReset_ra_resetSent (s : State) : s.resetSent.applyReset.ra = s.resetSent.ra := by
  apply bank_ext
  intro k
  have hra : s.resetSent.ra = s.applyReset.ra := rfl
  have hcfg : s.resetSent.cfg = s.cfg := rfl
  rw [bankGet_applyReset, hra, hcfg, bankGet_applyReset]
  split_ifs <;> rfl

/-- A second RESET finds nothing to change. -/
theorem State.resetSent_resetSent (s : State) : s.resetSent.resetSent = s.resetSent := by
  calc s.resetSent.resetSent
      = { s.resetSent with
          sr := statusCleared (statusCleared s.sr), ra := s.resetSent.applyReset.ra
          out := { s.resetSent.out with log := s.resetSent.out.log ++ s.resetSent.disp.underrun } } := rfl
    _ = s.resetSent := by
        rw [status_cleared_cleared, State.applyReset_ra_resetSent, State.resetSent_underrun, List.append_nil]
        rfl

/-- Settles O17: RESET's meaning at each count of parameters, and `State.resetSent` for the two programs. -/
theorem resetCompletes : Obligations.ResetCompletes := by
  intro s
  refine ⟨fun h0 => ⟨s.applyReset.ra, exec_reset_first h0, ?_⟩, fun h8 => ?_, fun h0 h8 => exec_reset_between h0 h8,
    fun hs => ⟨s.resetSent.withEvents s.events, ?_, ?_⟩⟩
  · refine ⟨bankGet_applyReset s 0#4, bankGet_applyReset s 1#4, bankGet_applyReset s 2#4, bankGet_applyReset s 3#4,
      fun k hk => ?_⟩
    have h3 : k ≠ 3#4 := by bv_omega
    rw [bankGet_applyReset, if_neg h3, if_neg (by omega)]
  · rw [exec_reset_last h8, exec_sync_last false h8]
  · exact (delivers_reset hs).run_feed
  · have again := delivers_reset (s := s.resetSent) (fun _ => rfl)
    rw [State.resetSent_resetSent] at again
    exact ((delivers_reset hs).append again).run_feed

end Sys2Proof.Machine

/-! ## Drawing set-up (R130 to R136) -/

namespace Sys2Proof.Machine

/-! ### CURS (R130, R131) -/

theorem cursEad_toNat (pr : List Byte) :
    (cursEad pr).toNat =
      (prGet pr 1#4).toNat + 256 * (prGet pr 2#4).toNat + 65536 * ((prGet pr 3#4).toNat % 4) := by
  rw [cursEad, toNat_append_mul, toNat_append_mul, toNat_field]
  omega

theorem cursDad_toNat (pr : List Byte) : (cursDad pr).toNat = (prGet pr 4#4).toNat / 16 :=
  (toNat_field (prGet pr 4#4) 7 4).trans (by omega)

/-- A fixed-arity meaning at any count but its two ends (R93). -/
theorem fixedArity_between {n : BitVec 4} (apply : State → State) {s : State} (h0 : s.disp.pcount ≠ 0#4)
    (hn : s.disp.pcount ≠ n) : fixedArity n apply s = .next s := by
  rw [fixedArity, if_neg h0, if_neg hn]

theorem exec_curs_last {s : State} (hn : s.disp.pcount = 4#4) : exec .curs s = .next (s.applyCurs.setPhase .idle) :=
  fixedArity_last State.applyCurs (by decide) hn

/-- Settles O22: the fourth parameter applies the layout of CURS, and any other changes nothing. -/
theorem cursCompletes : Obligations.CursCompletes := by
  refine ⟨decode_encode .curs, rfl, fun s => ⟨fun hn => ?_, fun h0 => ?_, fun h0 hn => ?_⟩⟩
  · exact ⟨cursEad s.disp.pr, cursDad s.disp.pr, exec_curs_last hn, cursEad_toNat _, cursDad_toNat _⟩
  · exact exec_fixed_start (i := .curs) rfl h0
  · exact fixedArity_between State.applyCurs h0 hn

/-! ### PRAM (R133, R94) -/

/-- While the pointer lies in the parameter RAM, a parameter byte is stored there and moves it up. -/
theorem State.applyPramByte_store {s : State} (h : s.disp.raPtr.toNat ≤ 15) (v : Byte) :
    s.applyPramByte v =
      { s with
        ra := bankSet s.ra (s.disp.raPtr.setWidth 4) v, disp := { s.disp with raPtr := s.disp.raPtr + 1#5 } } :=
  if_pos h

theorem State.applyPramByte_past {s : State} (h : 16 ≤ s.disp.raPtr.toNat) (v : Byte) : s.applyPramByte v = s :=
  if_neg (by omega)

theorem exec_pram_first {s : State} (h0 : s.disp.pcount = 0#4) (n : BitVec 4) :
    exec (.pram n) s = .next ((s.startPram n).setPhase .await) := if_pos h0

theorem exec_pram_param {s : State} (h0 : s.disp.pcount ≠ 0#4) (n : BitVec 4) :
    exec (.pram n) s = .next ((s.applyPramByte (s.disp.par s.disp.pcount)).setPcount 0#4) := if_neg h0

/-- Settles O23: the meaning at the command byte, and at a parameter byte within the parameter RAM and past its end. -/
theorem pramCompletes : Obligations.PramCompletes := by
  intro s n
  refine ⟨fun h0 => ⟨n.setWidth 5, exec_pram_first h0 n, ?_⟩, fun h0 hroom => ?_, fun h0 hpast => ?_⟩
  · bv_omega
  · refine ⟨s.disp.raPtr + 1#5, bankSet s.ra (s.disp.raPtr.setWidth 4) (s.disp.par s.disp.pcount), ?_, ?_, fun k => ?_⟩
    · rw [exec_pram_param h0, State.applyPramByte_store hroom]
      rfl
    · bv_omega
    · have hk : k = s.disp.raPtr.setWidth 4 ↔ k.toNat = s.disp.raPtr.toNat := by bv_omega
      simp only [bankGet_bankSet, hk]
      rfl
  · rw [exec_pram_param h0, State.applyPramByte_past hpast]
    rfl

/-- `ra` holds the bytes `ps` from index `n` on, as far as it reaches, and is `ra₀` elsewhere. -/
def FilledFrom (n : Nat) (ps : List Byte) (ra₀ ra : Vector Byte 16) : Prop :=
  ∀ k : BitVec 4, bankGet ra k =
    if n ≤ k.toNat ∧ k.toNat < n + ps.length then ps.getD (k.toNat - n) 0#8 else bankGet ra₀ k

theorem FilledFrom.nil (n : Nat) (ra : Vector Byte 16) : FilledFrom n [] ra ra := by
  intro k
  rw [if_neg (by simp)]

/-- A byte stored in the place behind those so far is one more of them; past the end there is no such place. -/
theorem FilledFrom.append {n : Nat} {ps : List Byte} {ra₀ ra ra' : Vector Byte 16} {b : Byte}
    (h : FilledFrom n ps ra₀ ra)
    (hra' : ∀ k : BitVec 4, bankGet ra' k = if k.toNat = n + ps.length then b else bankGet ra k) :
    FilledFrom n (ps ++ [b]) ra₀ ra' := by
  intro k
  rw [hra', h, List.length_append, List.length_singleton]
  by_cases hk : k.toNat = n + ps.length
  · rw [if_pos hk, if_pos (by omega), hk, Nat.add_sub_cancel_left]
    simp
  · rw [if_neg hk]
    by_cases hin : n ≤ k.toNat ∧ k.toNat < n + ps.length
    · rw [if_pos hin, if_pos (by omega), List.getD_append _ _ _ _ (by omega)]
    · rw [if_neg hin, if_neg (by omega)]

/-- `s` after a command byte and parameter bytes that PRAM has stored: `s.holding d` with `ra` for the parameter RAM. -/
def State.holdingRa (s : State) (d : Dispatcher) (ra : Vector Byte 16) : State := { s.holding d with ra := ra }

/-- `d` and `ra` are what PRAM with start index `n` and the parameter bytes `ps` has made of the dispatcher and of the
parameter RAM of `s`. -/
structure PramSent (s : State) (n : BitVec 4) (ps : List Byte) (d : Dispatcher) (ra : Vector Byte 16) : Prop where
  sent  : Sent (.pram n) ps.length (s.holdingRa d ra)
  size  : 12 ≤ d.pr.length
  raPtr : d.raPtr.toNat = min 16 (n.toNat + ps.length)
  ra    : FilledFrom n.toNat ps s.ra ra

/-- PRAM has applied every byte it was sent, so it counts none. -/
theorem PramSent.pcount {s : State} {n : BitVec 4} {ps : List Byte} {d : Dispatcher} {ra : Vector Byte 16}
    (h : PramSent s n ps d ra) : d.pcount = 0#4 :=
  BitVec.eq_of_toNat_eq (h.sent.pcount.trans (Nat.mod_one _))

/-- The command byte sets the pointer and leaves the parameter RAM. -/
theorem exec_pram_load (s : State) (n : BitVec 4) :
    ∃ d, PramSent s n [] d s.ra ∧
      exec (.pram n) (s.holding (s.disp.load s.cfg.prSize (encode (.pram n)) (.pram n))) =
        .next (s.holdingRa d s.ra) := by
  have hexec := exec_pram_first (s := s.holding (s.disp.load s.cfg.prSize (encode (.pram n)) (.pram n))) rfl n
  have hlen : (prLoad s.cfg.prSize (encode (.pram n))).length = s.cfg.prSize := prLoad_length s.cfg _
  refine ⟨{ s.disp.load s.cfg.prSize (encode (.pram n)) (.pram n) with raPtr := n.setWidth 5, phase := .await },
    ⟨exec_sent rfl rfl ⟨rfl, rfl, nofun, nofun⟩ hexec, ?_, ?_, .nil _ _⟩, hexec⟩
  · exact hlen.ge.trans' (Nat.le_add_right 12 _)
  · show (n.setWidth 5).toNat = min 16 (n.toNat + 0)
    bv_omega

/-- The parameter register at the new count holds the byte just stored. -/
theorem par_storeParam {s : State} (h : (s.disp.pcount + 1#4).toNat < s.disp.pr.length) (b : Byte) :
    (s.storeParam b).disp.par (s.storeParam b).disp.pcount = b :=
  (prGet_prSet _ b h).trans (if_pos rfl)

/-- A parameter byte goes into the parameter RAM behind those before it, or is dropped. -/
theorem PramSent.exec_storeParam {s : State} {n : BitVec 4} {ps : List Byte} {d : Dispatcher} {ra : Vector Byte 16}
    (h : PramSent s n ps d ra) (b : Byte) :
    ∃ d' ra', PramSent s n (ps ++ [b]) d' ra' ∧
      exec (.pram n) ((s.holdingRa d ra).storeParam b) = .next (s.holdingRa d' ra') := by
  have hptr := h.raPtr
  have hcount : d.pcount + 1#4 = 1#4 := by rw [h.pcount]; rfl
  have hone : (d.pcount + 1#4).toNat < d.pr.length := by
    rw [hcount]
    exact (by decide : (1#4).toNat < 12).trans_le h.size
  have h0 : d.pcount + 1#4 ≠ 0#4 := hcount.symm ▸ by decide
  have hsize : 12 ≤ (prSet d.pr (d.pcount + 1#4) b).length := (prSet_length _ _ _).symm ▸ h.size
  have hlen : (ps ++ [b]).length = ps.length + 1 := List.length_append
  have hexec := exec_pram_param (s := (s.holdingRa d ra).storeParam b) h0 n
  rw [par_storeParam (s := s.holdingRa d ra) hone] at hexec
  have hsent {d' ra'} (he : exec (.pram n) ((s.holdingRa d ra).storeParam b) = .next (s.holdingRa d' ra')) :
      Sent (.pram n) (ps ++ [b]).length (s.holdingRa d' ra') := hlen ▸ h.sent.of_storeParam rfl he
  by_cases hroom : d.raPtr.toNat ≤ 15
  · rw [State.applyPramByte_store (s := (s.holdingRa d ra).storeParam b) hroom] at hexec
    refine ⟨_, _, ⟨hsent hexec, hsize, ?_, h.ra.append fun k => ?_⟩, hexec⟩
    · show (d.raPtr + 1#5).toNat = _
      bv_omega
    · have hk : k = d.raPtr.setWidth 4 ↔ k.toNat = n.toNat + ps.length := by bv_omega
      simp only [← hk]
      exact bankGet_bankSet ra _ k b
  · rw [State.applyPramByte_past (s := (s.holdingRa d ra).storeParam b) (Nat.lt_of_not_le hroom)] at hexec
    refine ⟨_, _, ⟨hsent hexec, hsize, ?_, h.ra.append fun k => ?_⟩, hexec⟩
    · show d.raPtr.toNat = _
      omega
    · rw [if_neg (by omega)]
      rfl

/-- The writes of PRAM leave what `PramSent` says, and nothing else but the log of the command they abandon. -/
theorem delivers_pram {s : State} (hs : s.WriteReady) (n : BitVec 4) (ps : List Byte) :
    ∃ d ra, PramSent s n ps d ra
      ∧ Delivers (commandWrites s.cfg.portMap ⟨.pram n, ps⟩) s (s.holdingRa d ra) := by
  induction ps using List.reverseRecOn with
  | nil =>
    obtain ⟨d, hd, hexec⟩ := exec_pram_load s n
    refine ⟨d, s.ra, hd, delivers_portWrite hs ?_⟩
    rw [portWrite_runs_command hs (writePortAt_commandOffset _) (decode_encode (.pram n))]
    exact hexec
  | append_singleton ps b ih =>
    obtain ⟨d, ra, hd, hrun⟩ := ih
    obtain ⟨d', ra', hd', hexec⟩ := hd.exec_storeParam b
    refine ⟨d', ra', hd', ?_⟩
    have hwrite := hd.sent.portWrite_eq (fun _ => rfl) rfl b
    have hempty : (s.holdingRa d ra).emptied = s.holdingRa d ra :=
      congrArg (fun u : State => { u with ra := ra }) (s.emptied_holding d)
    rw [hempty] at hwrite
    rw [commandWrites_append]
    exact hrun.append (delivers_portWrite (fun _ => rfl) (hwrite.trans hexec))

/-- Settles O24: `delivers_pram`, an induction on the parameter bytes that keeps `PramSent`. -/
theorem pramStreamsIntoParameterRam : Obligations.PramStreamsIntoParameterRam := by
  intro s n ps hs
  obtain ⟨d, ra, hd, hrun⟩ := delivers_pram hs n ps
  have sent := hrun.run_feed
  rw [commandWrites_length] at sent
  exact ⟨d, ra, sent, hd.sent.awaits rfl, hd.pcount, hd.raPtr, hd.ra⟩

/-! ### FIGS (R136, R94) -/

theorem figCountOf_toNat (lo hi : Byte) : (figCountOf lo hi).toNat = lo.toNat + 256 * (hi.toNat % 64) := by
  rw [figCountOf, toNat_append_mul, toNat_field]
  omega

theorem exec_figs_first {s : State} (h0 : s.disp.pcount = 0#4) : exec .figs s = .next (s.setPhase .await) := if_pos h0

theorem State.setPcount_self {s : State} {k : BitVec 4} (h : s.disp.pcount = k) : s.setPcount k = s := by
  rw [← h]
  rfl

/-- Of the whole state a group writes the figure registers only. -/
theorem State.applyFigsGroup_eq (s : State) : s.applyFigsGroup = { s with fig := s.applyFigsGroup.fig } := by
  unfold State.applyFigsGroup
  dsimp only
  split_ifs <;> rfl

/-- No group ends at an even parameter. -/
theorem State.applyFigsGroup_even {s : State} (h : s.disp.pcount.toNat % 2 = 0) : s.applyFigsGroup = s := by
  have hodd (k : BitVec 4) (hk : k.toNat % 2 = 1) : s.disp.pcount ≠ k := by
    rintro rfl
    omega
  simp [State.applyFigsGroup, hodd]

/-- At any parameter but the eleventh FIGS stores the group that ends there, if one does, and goes on awaiting (R94). The
count is put in by `setPcount`, so that at a given `k` the group computes to its own fields. -/
theorem exec_figs_group {s : State} {k : BitVec 4} (hk : s.disp.pcount = k) (h0 : k ≠ 0#4) (hlast : k ≠ 11#4) :
    exec .figs s = .next { s with fig := (s.setPcount k).applyFigsGroup.fig } := by
  rw [State.setPcount_self hk, ← State.applyFigsGroup_eq, exec, execFigs, hk, if_neg h0, if_neg hlast]

/-- At the eleventh the last group is stored and FIGS is over. -/
theorem exec_figs_last {s : State} (hk : s.disp.pcount = 11#4) :
    exec .figs s =
      .next { s with fig := (s.setPcount 11#4).applyFigsGroup.fig, disp := { s.disp with phase := .idle } } := by
  rw [State.setPcount_self hk, exec, execFigs, hk, if_neg (by decide), if_pos rfl, State.applyFigsGroup_eq]
  rfl

/-- Settles O25: each odd count has its own group of the layout, and an even one has none. -/
theorem figsCompletes : Obligations.FigsCompletes := by
  intro s
  refine ⟨exec_figs_first, fun hn => ⟨_, _, exec_figs_group hn (by decide) (by decide), ?_, ?_⟩,
    fun hn => ⟨_, _, exec_figs_group hn (by decide) (by decide), figCountOf_toNat _ _, getLsbD_eq_decide _ 6⟩,
    fun hn => ⟨_, exec_figs_group hn (by decide) (by decide), figCountOf_toNat _ _⟩,
    fun hn => ⟨_, exec_figs_group hn (by decide) (by decide), figCountOf_toNat _ _⟩,
    fun hn => ⟨_, exec_figs_group hn (by decide) (by decide), figCountOf_toNat _ _⟩,
    fun hn => ⟨_, exec_figs_last hn, figCountOf_toNat _ _⟩, fun h0 heven => ?_⟩
  · exact (toNat_field (prGet s.disp.pr 1#4) 7 3).trans (Nat.mod_eq_of_lt (by omega))
  · exact (toNat_field (prGet s.disp.pr 1#4) 2 0).trans (by rw [Nat.pow_zero, Nat.div_one]; rfl)
  · have hlast : s.disp.pcount ≠ 11#4 := by bv_omega
    rw [exec_figs_group rfl h0 hlast, State.setPcount_self rfl, State.applyFigsGroup_even heven]

end Sys2Proof.Machine

/-! ## Addresses read back (R130, R180, R181) -/

namespace Sys2Proof.Machine

/-! ### The bytes of an address (R43, R180) -/

theorem addrBytes_eq (a : VAddr) :
    addrBytes a =
      [BitVec.ofNat 8 (a.toNat % 256), BitVec.ofNat 8 (a.toNat / 256 % 256), BitVec.ofNat 8 (a.toNat / 65536)] := by
  have hlow : a.extractLsb 7 0 = BitVec.ofNat 8 (a.toNat % 256) := BitVec.eq_of_toNat_eq (by
    rw [toNat_field, BitVec.toNat_ofNat]
    omega)
  have hmid : a.extractLsb 15 8 = BitVec.ofNat 8 (a.toNat / 256 % 256) := BitVec.eq_of_toNat_eq (by
    rw [toNat_field, BitVec.toNat_ofNat]
    omega)
  have htop : (a.extractLsb 17 16).setWidth 8 = BitVec.ofNat 8 (a.toNat / 65536) := BitVec.eq_of_toNat_eq (by
    rw [BitVec.toNat_setWidth, toNat_field, BitVec.toNat_ofNat]
    omega)
  rw [addrBytes, hlow, hmid, htop]

theorem dotBytes_two (dad : BitVec 4) :
    dotBytes .two dad = [BitVec.ofNat 8 (2 ^ dad.toNat % 256), BitVec.ofNat 8 (2 ^ dad.toNat / 256)] := by
  have hdot : (1#16 <<< dad.toNat).toNat = 2 ^ dad.toNat := by
    have hlt : 2 ^ dad.toNat < 2 ^ 16 := Nat.pow_lt_pow_right (by decide) dad.isLt
    rw [BitVec.toNat_shiftLeft, Nat.shiftLeft_eq, BitVec.toNat_ofNat]
    omega
  have hlow : loByte (1#16 <<< dad.toNat) = BitVec.ofNat 8 (2 ^ dad.toNat % 256) := by
    apply BitVec.eq_of_toNat_eq
    rw [toNat_loByte, hdot, BitVec.toNat_ofNat, Nat.mod_mod]
  have hhigh : hiByte (1#16 <<< dad.toNat) = BitVec.ofNat 8 (2 ^ dad.toNat / 256) := by
    apply BitVec.eq_of_toNat_eq
    have hb := (hiByte (1#16 <<< dad.toNat)).isLt
    rw [toNat_hiByte, hdot] at hb ⊢
    exact (Nat.mod_eq_of_lt hb).symm
  rw [dotBytes, hlow, hhigh]

/-- The address that CURS sets comes apart into the bytes sent, but for the bits of the third that it drops. -/
theorem addrBytes_cursEad (pr : List Byte) :
    addrBytes (cursEad pr) = [prGet pr 1#4, prGet pr 2#4, BitVec.ofNat 8 ((prGet pr 3#4).toNat % 4)] := by
  have h1 := (prGet pr 1#4).isLt
  have h2 := (prGet pr 2#4).isLt
  have hlow : BitVec.ofNat 8 ((cursEad pr).toNat % 256) = prGet pr 1#4 := BitVec.eq_of_toNat_eq (by
    rw [BitVec.toNat_ofNat, cursEad_toNat]
    omega)
  have hmid : BitVec.ofNat 8 ((cursEad pr).toNat / 256 % 256) = prGet pr 2#4 := BitVec.eq_of_toNat_eq (by
    rw [BitVec.toNat_ofNat, cursEad_toNat]
    omega)
  have htop : (cursEad pr).toNat / 65536 = (prGet pr 3#4).toNat % 4 := by
    rw [cursEad_toNat]
    omega
  rw [addrBytes_eq, hlow, hmid, htop]

/-! ### Queued results and the reads that fetch them (R88, R180, R182) -/

/-- What CURD and LPRD share, from a WRITE queue: the results are the whole READ queue. -/
theorem State.readBack_eq {s : State} (hd : s.fifoDir = .write) {bs : List Byte} (hbs : bs.length ≤ 16) :
    ∃ sr, (s.setDirection .read).enqueueResults bs =
      { s with fifo := bs.map (fun b => ⟨b, false⟩), fifoDir := .read, sr := sr } := by
  rw [State.setDirection_switch (by simp [hd])]
  obtain ⟨sr, hresult, -⟩ := State.enqueueResults_eq
    { s with fifo := [], sr := statusCleared s.sr, fifoDir := .read } bs rfl (Nat.zero_le _)
    (statusGet_cleared s.sr .ff)
  refine ⟨sr, hresult.trans ?_⟩
  simp [List.take_of_length_le hbs, List.drop_of_length_le hbs]

theorem exec_curd (s : State) : exec .curd s = .next (s.applyCurd.setPhase .idle) := rfl

theorem readPortAt_one (m : PortMap) : readPortAt m 1 = .data := by
  cases m <;> rfl

/-- A data read takes the head of a READ queue, whatever is pending after it. -/
theorem delivers_dataRead {offset : Nat} {s : State} (hport : readPortAt s.cfg.portMap offset = .data)
    (hd : s.fifoDir = .read) {e : FifoEntry} {q : List FifoEntry} (hq : s.fifo = e :: q) :
    Delivers [.portRead offset] s
      (State.returnByte { s with fifo := q, sr := statusAfterDequeue s.sr q.length } e.byte) := by
  intro fs
  have hstep := step_cons (s := s.withEvents (.portRead offset :: fs)) rfl
  have hread := portRead_of_data (s := s.withEvents fs) hport
  rw [State.dataRead_cons (s := s.withEvents fs) hd hq] at hread
  exact run_succ (hstep.trans (congrArg Host.Outcome.next hread))

/-- As many data reads as results are queued return them in order and leave the queue empty. -/
theorem delivers_dataReads {offset : Nat} (bs : List Byte) {s : State} (hs : s.FifoOk)
    (hport : readPortAt s.cfg.portMap offset = .data) (hd : s.fifoDir = .read)
    (hq : s.fifo = bs.map (fun b => ⟨b, false⟩)) :
    ∃ t, Delivers (List.replicate bs.length (.portRead offset)) s t ∧ t.FifoOk ∧ t.fifoDir = .read ∧ t.fifo = []
      ∧ t.out.reads = s.out.reads ++ bs := by
  induction bs generalizing s with
  | nil => exact ⟨s, fun _ => rfl, hs, hd, hq, (List.append_nil _).symm⟩
  | cons b bs ih =>
    have hnext := hs.dequeue hd (State.dequeue_cons hq)
    obtain ⟨t, hreads, hok, hdir, hempty, hout⟩ :=
      ih (s := State.returnByte { s with fifo := _, sr := statusAfterDequeue s.sr _ } b) hnext hport hd rfl
    refine ⟨t, (delivers_dataRead hport hd hq).append hreads, hok, hdir, hempty, hout.trans ?_⟩
    simp

/-! ### CURS, CURD and five data reads -/

/-- CURS as the host sees it: `ead` and `dad` of the state that holds its bytes are the layout of the four. -/
theorem delivers_curs {s : State} (hs : s.WriteReady) (p1 p2 p3 p4 : Byte) :
    ∃ d, s.disp.AwaitsWith .curs [p1, p2, p3, p4] d
      ∧ Delivers (commandWrites s.cfg.portMap ⟨.curs, [p1, p2, p3, p4]⟩) s ((s.holding d).applyCurs.setPhase .idle) := by
  obtain ⟨d, t, hd, hrun, hexec, -⟩ := delivers_applied (i := .curs) rfl hs (ps := [p1, p2, p3, p4]) rfl
  have hcount : d.pcount = 4#4 := BitVec.eq_of_toNat_eq hd.pcount
  rw [exec_curs_last (s := s.holding d) hcount] at hexec
  cases hexec
  exact ⟨d, hd, hrun⟩

/-- CURD as the host sees it: the READ queue holds the address and the dot address. -/
theorem delivers_curd {s : State} (hs : s.WriteReady) :
    ∃ t, Delivers (commandWrites s.cfg.portMap ⟨.curd, []⟩) s t ∧ t.FifoOk ∧ t.fifoDir = .read ∧ t.cfg = s.cfg
      ∧ t.fifo = (addrBytes s.addr.ead ++ dotBytes s.cfg.curdDadBytes s.addr.dad).map (fun b => ⟨b, false⟩)
      ∧ t.out.reads = s.out.reads := by
  set u := s.holding (s.disp.load s.cfg.prSize (encode .curd) .curd)
  have hlen : (addrBytes u.addr.ead ++ dotBytes u.cfg.curdDadBytes u.addr.dad).length ≤ 16 := by
    cases h : u.cfg.curdDadBytes <;> simp [addrBytes, dotBytes]
  obtain ⟨sr, hqueued⟩ := State.readBack_eq (s := u) rfl hlen
  have hok : u.applyCurd.FifoOk := (fifoOk_of_cleared (s := u) rfl rfl).readBack _
  have hwrite := (portWrite_runs_command hs (writePortAt_commandOffset _) (decode_encode .curd)).trans (exec_curd u)
  refine ⟨_, delivers_portWrite hs hwrite, hok, ?_⟩
  rw [State.applyCurd, hqueued]
  exact ⟨rfl, rfl, rfl, rfl⟩

/-- Settles O38: CURS leaves the layout of its bytes in `ead` and `dad`, CURD queues it, the reads return the queue. -/
theorem cursReadsBackThroughCurd : Obligations.CursReadsBackThroughCurd := by
  intro s p1 p2 p3 p4 hs htwo
  obtain ⟨d, hd, hcurs⟩ := delivers_curs hs p1 p2 p3 p4
  obtain ⟨u, hcurd, hok, hdir, hcfg, hqueue, hout⟩ :=
    delivers_curd (s := (s.holding d).applyCurs.setPhase .idle) (fun _ => rfl)
  have hbytes : addrBytes (cursEad d.pr) ++ dotBytes s.cfg.curdDadBytes (cursDad d.pr) =
      [p1, p2, BitVec.ofNat 8 (p3.toNat % 4), BitVec.ofNat 8 (2 ^ (p4.toNat / 16) % 256),
        BitVec.ofNat 8 (2 ^ (p4.toNat / 16) / 256)] := by
    rw [htwo, dotBytes_two, cursDad_toNat, addrBytes_cursEad, hd.param (by decide), hd.param (by decide),
      hd.param (by decide), hd.param (by decide)]
    rfl
  obtain ⟨t, hreads, htok, htdir, htempty, htout⟩ :=
    delivers_dataReads _ hok (hcfg ▸ readPortAt_one s.cfg.portMap) hdir (hqueue.trans (congrArg _ hbytes))
  obtain ⟨-, hfe, -, hdr, -⟩ := htok
  have hrun := (hcurs.append (hcurd.append hreads)).run_feed
  refine ⟨t.withEvents s.events, hrun, htout.trans (congrArg (· ++ _) hout), htempty, htdir, hdr.trans ?_, hfe.trans ?_⟩
  · simp [htempty]
  · simp [htempty]

end Sys2Proof.Machine

/-! ## The address registers and the modify function (R150, R151, R156) -/

namespace Sys2Proof.Machine

/-! ### The two parts of a step (R150) -/

/-- What the line part of a step adds to `ead`, as a number (R150). -/
def lineStep (pitch : Byte) (d : BitVec 3) : Int :=
  if d.toNat = 0 ∨ d.toNat = 1 ∨ d.toNat = 7 then (pitch.toNat : Int)
  else if d.toNat = 3 ∨ d.toNat = 4 ∨ d.toNat = 5 then -(pitch.toNat : Int) else 0

theorem AddrRegs.moveLine_mask (a : AddrRegs) (pitch : Byte) (d : BitVec 3) : (a.moveLine pitch d).mask = a.mask := by
  unfold AddrRegs.moveLine
  split_ifs <;> rfl

theorem AddrRegs.moveLine_dad (a : AddrRegs) (pitch : Byte) (d : BitVec 3) : (a.moveLine pitch d).dad = a.dad := by
  unfold AddrRegs.moveLine
  split_ifs <;> rfl

theorem AddrRegs.moveLine_ead (a : AddrRegs) (pitch : Byte) (d : BitVec 3) :
    ((a.moveLine pitch d).ead.toNat : Int) = (a.ead.toNat + lineStep pitch d) % 262144 := by
  simp only [AddrRegs.moveLine, lineStep, ← BitVec.toNat_inj, BitVec.toNat_ofNat]
  have hpitch : (pitch.setWidth 18).toNat = pitch.toNat := BitVec.toNat_setWidth_of_le (by decide)
  split_ifs
  · rw [BitVec.toNat_add, hpitch]
    omega
  · rw [BitVec.toNat_sub, hpitch]
    omega
  · omega

theorem AddrRegs.rotLeft_ead (a : AddrRegs) :
    a.rotLeft.ead.toNat = (a.ead.toNat + a.mask.toNat / 32768) % 262144 := by
  have hbit : a.mask.getLsbD 15 = decide (a.mask.toNat / 32768 = 1) :=
    (getLsbD_eq_decide a.mask 15).trans (decide_eq_decide.mpr (by omega))
  simp only [AddrRegs.rotLeft, hbit, decide_eq_true_eq]
  split_ifs
  · bv_omega
  · omega

theorem AddrRegs.rotRight_ead (a : AddrRegs) :
    (a.rotRight.ead.toNat : Int) = (a.ead.toNat - a.mask.toNat % 2) % 262144 := by
  have hbit : a.mask.getLsbD 0 = decide (a.mask.toNat % 2 = 1) :=
    (getLsbD_eq_decide a.mask 0).trans (by rw [Nat.pow_zero, Nat.div_one])
  simp only [AddrRegs.rotRight, hbit, decide_eq_true_eq]
  split_ifs
  · rw [BitVec.toNat_sub, BitVec.toNat_ofNat]
    omega
  · omega

/-- A rotate to the left by one doubles and brings the top bit in below (R150). -/
theorem toNat_rotateLeft_one (w : Word) : (w.rotateLeft 1).toNat = w.toNat * 2 % 65536 + w.toNat / 32768 := by
  have hlow : w.toNat / 32768 < 2 ^ 1 := by omega
  have hhigh : w.toNat * 2 % 65536 = w.toNat % 32768 * 2 ^ 1 := by omega
  rw [BitVec.toNat_rotateLeft, Nat.shiftLeft_eq, Nat.shiftRight_eq_div_pow]
  show w.toNat * 2 % 65536 ||| w.toNat / 32768 = _
  rw [hhigh, ← Nat.shiftLeft_eq, Nat.shiftLeft_add_eq_or_of_lt hlow]

/-- A rotate to the right by one halves and brings the bottom bit in on top (R150). -/
theorem toNat_rotateRight_one (w : Word) : (w.rotateRight 1).toNat = w.toNat / 2 + 32768 * (w.toNat % 2) := by
  have hlow : w.toNat / 2 < 2 ^ 15 := by omega
  have hhigh : w.toNat * 32768 % 65536 = w.toNat % 2 * 2 ^ 15 := by omega
  rw [BitVec.toNat_rotateRight, Nat.shiftLeft_eq, Nat.shiftRight_eq_div_pow, Nat.or_comm]
  show w.toNat * 32768 % 65536 ||| w.toNat / 2 = _
  rw [hhigh, ← Nat.shiftLeft_eq, ← Nat.shiftLeft_add_eq_or_of_lt hlow, Nat.shiftLeft_eq]
  omega

/-- A step to the left: the line part, then a rotate to the left. -/
theorem AddrRegs.advance_left (a : AddrRegs) (pitch : Byte) {d : BitVec 3}
    (h : d.toNat = 1 ∨ d.toNat = 2 ∨ d.toNat = 3) : a.advance pitch d = (a.moveLine pitch d).rotLeft :=
  if_pos (by bv_omega)

theorem AddrRegs.advance_right (a : AddrRegs) (pitch : Byte) {d : BitVec 3}
    (h : d.toNat = 5 ∨ d.toNat = 6 ∨ d.toNat = 7) : a.advance pitch d = (a.moveLine pitch d).rotRight :=
  (if_neg (by bv_omega)).trans (if_pos (by bv_omega))

theorem AddrRegs.advance_line (a : AddrRegs) (pitch : Byte) {d : BitVec 3}
    (hl : ¬ (d.toNat = 1 ∨ d.toNat = 2 ∨ d.toNat = 3)) (hr : ¬ (d.toNat = 5 ∨ d.toNat = 6 ∨ d.toNat = 7)) :
    a.advance pitch d = a.moveLine pitch d :=
  (if_neg (by bv_omega)).trans (if_neg (by bv_omega))

/-- Settles O26: the line part, and behind it the rotate that the direction has, if any. -/
theorem advanceEadArithmetic : Obligations.AdvanceEadArithmetic := by
  intro a pitch d
  have hline := a.moveLine_ead pitch d
  have hmask := a.moveLine_mask pitch d
  have hdad := a.moveLine_dad pitch d
  refine ⟨fun hl => ?_, fun hr => ?_, fun hl hr => ?_⟩
  · rw [a.advance_left pitch hl]
    refine ⟨?_, ?_, ?_⟩
    · rw [AddrRegs.rotLeft_ead, hmask]
      push_cast
      rw [hline, Int.emod_add_emod]
      rfl
    · rw [← hmask]
      exact toNat_rotateLeft_one _
    · rw [← hdad]
      exact BitVec.toNat_add _ 1#4
  · rw [a.advance_right pitch hr]
    refine ⟨?_, ?_, ?_⟩
    · rw [AddrRegs.rotRight_ead, hmask, hline, Int.emod_sub_emod]
      rfl
    · rw [← hmask]
      exact toNat_rotateRight_one _
    · rw [← hdad]
      exact BitVec.toNat_add _ 15#4
  · rw [a.advance_line pitch hl hr]
    exact ⟨hline, hmask, hdad⟩

/-! ### Masks that keep their shape (R151) -/

/-- Direction 2 has no line part: its step is a rotate to the left. -/
theorem AddrRegs.advance_two (a : AddrRegs) (pitch : Byte) : a.advance pitch 2#3 = a.rotLeft := rfl

/-- A full mask carries at every step and stays full. -/
theorem AddrRegs.rotLeft_full (ead : VAddr) (dad : BitVec 4) :
    AddrRegs.rotLeft ⟨ead, dad, 0xFFFF#16⟩ = ⟨ead + 1#18, dad + 1#4, 0xFFFF#16⟩ := by
  have hrot : (0xFFFF#16).rotateLeft 1 = 0xFFFF#16 := by decide
  simp [AddrRegs.rotLeft, hrot]

/-- An empty mask never carries and stays empty. -/
theorem AddrRegs.rotLeft_empty (ead : VAddr) (dad : BitVec 4) :
    AddrRegs.rotLeft ⟨ead, dad, 0#16⟩ = ⟨ead, dad + 1#4, 0#16⟩ := by
  have hrot : (0#16).rotateLeft 1 = 0#16 := by decide
  simp [AddrRegs.rotLeft, hrot]

/-- A single bit goes round the sixteen places. -/
theorem oneHot_rotate (k : Fin 16) :
    (1#16 <<< k.val).getLsbD 15 = decide (k.val = 15)
      ∧ (1#16 <<< k.val).rotateLeft 1 = 1#16 <<< ((k.val + 1) % 16) := by
  revert k
  decide

/-- `n` steps of one dot from where the dot address is the place of the one bit of the mask (R151). -/
def AddrRegs.oneHotAt (a : AddrRegs) (n : Nat) : AddrRegs where
  ead  := a.ead + BitVec.ofNat 18 ((a.dad.toNat + n) / 16)
  dad  := a.dad + BitVec.ofNat 4 n
  mask := 1#16 <<< ((a.dad.toNat + n) % 16)

/-- The bit in place `n mod 16` carries into `ead` exactly when `n + 1` is a multiple of 16. -/
theorem AddrRegs.rotLeft_oneHotAt (a : AddrRegs) (n : Nat) : (a.oneHotAt n).rotLeft = a.oneHotAt (n + 1) := by
  obtain ⟨htop, hrot⟩ := oneHot_rotate ⟨(a.dad.toNat + n) % 16, Nat.mod_lt _ (by decide)⟩
  have hplace : ((a.dad.toNat + n) % 16 + 1) % 16 = (a.dad.toNat + (n + 1)) % 16 := by omega
  simp only [AddrRegs.rotLeft, AddrRegs.oneHotAt, htop, hrot, hplace, decide_eq_true_eq]
  rw [BitVec.ofNat_add (x := n), ← BitVec.add_assoc a.dad]
  congr 1
  split_ifs with h
  · have hcarry : (a.dad.toNat + (n + 1)) / 16 = (a.dad.toNat + n) / 16 + 1 := by omega
    rw [hcarry, BitVec.ofNat_add ((a.dad.toNat + n) / 16), BitVec.add_assoc]
  · have hstay : (a.dad.toNat + (n + 1)) / 16 = (a.dad.toNat + n) / 16 := by omega
    rw [hstay]

section
variable {a : AddrRegs} (pitch : Byte) (n : Nat)

theorem AddrRegs.advanceN_full (h : a.mask = 0xFFFF#16) :
    a.advanceN pitch 2#3 n = ⟨a.ead + BitVec.ofNat 18 n, a.dad + BitVec.ofNat 4 n, 0xFFFF#16⟩ := by
  induction n with
  | zero => simp [← h]
  | succ n ih =>
    rw [AddrRegs.advanceN_succ, ih, AddrRegs.advance_two, AddrRegs.rotLeft_full, BitVec.ofNat_add, BitVec.ofNat_add,
      BitVec.add_assoc, BitVec.add_assoc]

theorem AddrRegs.advanceN_empty (h : a.mask = 0#16) :
    a.advanceN pitch 2#3 n = ⟨a.ead, a.dad + BitVec.ofNat 4 n, a.mask⟩ := by
  induction n with
  | zero => simp
  | succ n ih =>
    rw [AddrRegs.advanceN_succ, ih, AddrRegs.advance_two, h, AddrRegs.rotLeft_empty, BitVec.ofNat_add, BitVec.add_assoc]

theorem AddrRegs.advanceN_oneHot (h : a.mask = 1#16 <<< a.dad.toNat) : a.advanceN pitch 2#3 n = a.oneHotAt n := by
  induction n with
  | zero =>
    have hlt : a.dad.toNat < 16 := a.dad.isLt
    simp [AddrRegs.oneHotAt, Nat.div_eq_of_lt hlt, Nat.mod_eq_of_lt hlt, ← h]
  | succ n ih => rw [AddrRegs.advanceN_succ, ih, AddrRegs.advance_two, AddrRegs.rotLeft_oneHotAt]

end

/-- Settles O27: each of the three masks is followed through the rotates to the left. -/
theorem maskStepsRightward : Obligations.MaskStepsRightward :=
  fun _ pitch n => ⟨AddrRegs.advanceN_full pitch n, AddrRegs.advanceN_empty pitch n, AddrRegs.advanceN_oneHot pitch n⟩

/-! ### The modify function (R156) -/

/-- Settles O28: by the modes, in a place that `sel` leaves out and in one that it selects. -/
theorem modifyBitwise : Obligations.ModifyBitwise := by
  intro m old data sel i
  cases hsel : sel.getLsbD i with
  | false =>
    have hold : old.getLsbD i = true → i < 16 := BitVec.lt_of_getLsbD
    cases m <;> simp +contextual [modifyWord, hsel, hold]
  | true =>
    have hi : i < 16 := BitVec.lt_of_getLsbD hsel
    rw [BitVec.getLsbD_eq_getElem hi] at hsel
    cases m <;> simp [modifyWord, hsel, hi]

end Sys2Proof.Machine

/-! ## Data transfer (R155, R158, R160, R165 to R167) -/

namespace Sys2Proof.Machine

/-! ### WDAT (R155, R156, R94) -/

theorem exec_wdat_first {s : State} (h0 : s.disp.pcount = 0#4) (t : XferType) (m : ModMode) :
    exec (.wdat t m) s = .next (s.startWdat t m) := if_pos h0

theorem exec_wdat_unit {s : State} (h0 : s.disp.pcount ≠ 0#4) (hunit : s.disp.pcount = wdatGroup s.disp.xtype)
    (t : XferType) (m : ModMode) : exec (.wdat t m) s = .next (s.applyWdat.setPcount 0#4) :=
  (if_neg h0).trans (if_pos hunit)

/-- The first byte of a word only waits for the second (R94). -/
theorem exec_wdat_wait {s : State} (h1 : s.disp.pcount = 1#4) (hword : s.disp.xtype = .word) (t : XferType)
    (m : ModMode) : exec (.wdat t m) s = .next s := by
  rw [exec, execWdat, h1, hword, if_neg (by decide), if_neg (by decide)]

/-- Settles O29: `WdatStart` by the type, and the wait within a word unit. -/
theorem wdatCommandByte : Obligations.WdatCommandByte := by
  intro s t m
  refine ⟨fun h0 hvalid => ?_, fun h0 hinvalid => ?_, fun h1 hword => exec_wdat_wait h1 hword t m⟩
  · rw [exec_wdat_first h0, State.startWdat, if_neg hvalid]
    rfl
  · rw [exec_wdat_first h0, State.startWdat, if_pos hinvalid]
    rfl

/-- A complete data unit of a valid type: the writes through the lane of the type, then the repeat count. -/
theorem State.applyWdat_valid {s : State} (h : s.disp.xtype ≠ .invalid) :
    s.applyWdat =
      (s.plotN (wdatData s.disp.xtype s.disp.pr) (laneOf s.disp.xtype) (s.fig.dc.toNat + 1)).clearRepeat := by
  unfold State.applyWdat
  split
  next hx => exact absurd hx h
  next => rfl

/-- What a complete data unit leaves, with every write written out (R155). -/
theorem exec_wdat_unit_eq {s : State} (h0 : s.disp.pcount ≠ 0#4) (hunit : s.disp.pcount = wdatGroup s.disp.xtype)
    (hvalid : s.disp.xtype ≠ .invalid) (t : XferType) (m : ModMode) :
    exec (.wdat t m) s = .next
      { s with
        mem := s.memPlotted s.mem s.addr (fun _ => wdatData s.disp.xtype s.disp.pr) (laneOf s.disp.xtype)
          (s.fig.dc.toNat + 1)
        addr := s.addr.advanceN s.pitch s.fig.dir (s.fig.dc.toNat + 1), fig := { s.fig with dc := 0#14 }
        disp := { s.disp with pcount := 0#4 } } := by
  rw [exec_wdat_unit h0 hunit, State.applyWdat_valid hvalid, State.plotN_eq]
  rfl

/-- A word of two bytes, as a number (R43). -/
theorem wordOf_eq_ofNat (lo hi : Byte) : wordOf lo hi = BitVec.ofNat 16 (lo.toNat + 256 * hi.toNat) := by
  apply BitVec.eq_of_toNat_eq
  rw [toNat_wordOf, BitVec.toNat_ofNat]
  omega

/-- Settles O30: the three types of a data unit, each with its data and lane, are one run of `State.memPlotted`. -/
theorem wdatWritesMemory : Obligations.WdatWritesMemory := by
  intro s t m data lane hunit
  obtain ⟨hvalid, h0, hcount, rfl, rfl⟩ : s.disp.xtype ≠ .invalid ∧ s.disp.pcount ≠ 0#4
      ∧ s.disp.pcount = wdatGroup s.disp.xtype ∧ data = wdatData s.disp.xtype s.disp.pr
      ∧ lane = laneOf s.disp.xtype := by
    obtain ⟨hx, hcount, rfl, rfl⟩ | ⟨hx, hcount, rfl, rfl⟩ | ⟨hx, hcount, rfl, rfl⟩ := hunit
    all_goals
      rw [hx, hcount, wdatData, wordOf_eq_ofNat]
      refine ⟨by decide, by decide, rfl, ?_, rfl⟩
    · rfl
    · rfl
    · simp [State.param]
  exact ⟨_, exec_wdat_unit_eq h0 hcount hvalid t m, rfl, fun x hx => State.readByte_memPlotted _ _ _ _ _ hx⟩

/-! ### RDAT (R158, R287, R68) -/

/-- The bytes of a word as numbers (R43, R158). -/
theorem rdatBytes_eq (t : XferType) (w : Word) :
    rdatBytes t w =
      match t with
      | .word => [BitVec.ofNat 8 (w.toNat % 256), BitVec.ofNat 8 (w.toNat / 256)]
      | .lowByte => [BitVec.ofNat 8 (w.toNat % 256)]
      | .highByte => [BitVec.ofNat 8 (w.toNat / 256)]
      | .invalid => [] := by
  have hlow : loByte w = BitVec.ofNat 8 (w.toNat % 256) := by
    rw [← toNat_loByte, BitVec.ofNat_toNat, BitVec.setWidth_eq]
  have hhigh : hiByte w = BitVec.ofNat 8 (w.toNat / 256) := by
    rw [← toNat_hiByte, BitVec.ofNat_toNat, BitVec.setWidth_eq]
  cases t <;> simp only [rdatBytes, hlow, hhigh]

theorem rdatBytes_ne_nil {t : XferType} (h : t ≠ .invalid) (w : Word) : rdatBytes t w ≠ [] := by
  cases t with
  | invalid => exact absurd rfl h
  | _ => exact List.cons_ne_nil _ _

/-- The bytes that `n` words of an RDAT queue, in order, up to the queue's depth and beyond it (R158, R287). -/
def State.rdatStream (s : State) (t : XferType) (n : Nat) : List Byte :=
  (List.range n).flatMap (fun j => rdatBytes t (s.memRead (s.addr.advanceN s.pitch s.fig.dir j).ead))

theorem State.rdatStream_ne_nil (s : State) {t : XferType} (h : t ≠ .invalid) (n : Nat) :
    s.rdatStream t (n + 1) ≠ [] := by
  rw [State.rdatStream, List.range_succ_eq_map, List.flatMap_cons]
  exact List.append_ne_nil_of_left_ne_nil (rdatBytes_ne_nil h _) _

/-- RDAT of a valid type from a WRITE queue: its bytes fill the READ queue, and those past its depth are logged. -/
theorem exec_rdat_valid {s : State} (hd : s.fifoDir = .write) {t : XferType} (ht : t ≠ .invalid) (m : ModMode) :
    ∃ sr : Byte,
      exec (.rdat t m) s = .next
        { s with
          fifo := ((s.rdatStream t (s.fig.dc.toNat + 1)).take 16).map (fun b => ⟨b, false⟩), fifoDir := .read, sr := sr
          addr := s.addr.advanceN s.pitch s.fig.dir (s.fig.dc.toNat + 1), fig := { s.fig with dc := 0#14 }
          disp := { s.disp with xtype := t, mod := m, phase := .idle }
          out := { s.out with
            log := s.out.log ++
              ((s.rdatStream t (s.fig.dc.toNat + 1)).drop 16).map (fun b => ⟨.fifoOverflow, b⟩) } }
        ∧ statusGet sr .dr = true ∧ statusGet sr .fe = false
        ∧ statusGet sr .ff = decide (16 ≤ (s.rdatStream t (s.fig.dc.toNat + 1)).length)
        ∧ ∀ x : StatusBit, x ≠ .fe → x ≠ .ff → x ≠ .dr → statusGet sr x = s.status x := by
  obtain ⟨sr, hqueued, hff, hfirst, -, hother⟩ := State.enqueueResults_eq
    { s.latchXfer t m with fifo := [], sr := statusCleared s.sr, fifoDir := .read }
    (s.rdatStream t (s.fig.dc.toNat + 1)) rfl (Nat.zero_le _) (statusGet_cleared s.sr .ff)
  have turned : (s.latchXfer t m).setDirection .read =
      { s.latchXfer t m with fifo := [], sr := statusCleared s.sr, fifoDir := .read } :=
    State.setDirection_switch (by simp [hd])
  have hexec : exec (.rdat t m) s = .next
      (((((s.latchXfer t m).setDirection .read).readOutN t (s.fig.dc.toNat + 1)).clearRepeat).setPhase .idle) := by
    rw [exec, execRdat, immediate, State.applyRdat]
    simp only [ht, if_false, State.latchXfer_fig]
  rw [turned, State.readOutN_eq] at hexec
  have hread := hexec.trans (congrArg (fun u : State => Host.Outcome.next
    (({ u with addr := s.addr.advanceN s.pitch s.fig.dir (s.fig.dc.toNat + 1) } : State).clearRepeat.setPhase .idle))
    hqueued)
  obtain ⟨hdr, hfe⟩ := hfirst (s.rdatStream_ne_nil ht _) (Nat.zero_lt_succ _)
  refine ⟨sr, hread, hdr, hfe, by simpa using hff, fun x h h' h'' => (hother x h h' h'').trans ?_⟩
  have hturned := (s.latchXfer t m).status_setDirection_other .read x h h' h''
  rwa [turned] at hturned

theorem State.turnForInvalid_keeps {s : State} (h : s.cfg.rdatInvalid = .keepsDirection) : s.turnForInvalid = s := by
  simp only [State.turnForInvalid, h]

theorem State.turnForInvalid_turns {s : State} (h : s.cfg.rdatInvalid = .turnsToRead) :
    s.turnForInvalid = s.setDirection .read := by
  simp only [State.turnForInvalid, h]

theorem exec_rdat_invalid (s : State) (m : ModMode) :
    exec (.rdat .invalid m) s =
      .next (((s.latchXfer .invalid m).turnForInvalid.raiseLog .invalidType s.disp.cr).setPhase .idle) := rfl

/-- Settles O31: the two readings of the invalid type, and the bytes of a valid one. -/
theorem rdatCompletes : Obligations.RdatCompletes := by
  intro s t m hd
  refine ⟨?_, ?_, fun ht => ?_⟩
  · rintro rfl hkeeps
    rw [exec_rdat_invalid, State.turnForInvalid_keeps (s := s.latchXfer .invalid m) hkeeps]
    rfl
  · rintro rfl hturns
    have hne : (s.latchXfer .invalid m).fifoDir ≠ .read := by simp [hd]
    rw [exec_rdat_invalid, State.turnForInvalid_turns (s := s.latchXfer .invalid m) hturns,
      State.setDirection_switch hne]
    refine ⟨statusCleared s.sr, rfl, statusGet_cleared _ _, statusGet_cleared _ _, statusGet_cleared _ _,
      fun x h h' h'' => ?_⟩
    have hturned := (s.latchXfer .invalid m).status_setDirection_other .read x h h' h''
    rwa [State.setDirection_switch hne] at hturned
  · have hvalid := exec_rdat_valid hd ht m
    simp only [State.rdatStream, rdatBytes_eq] at hvalid
    exact hvalid

/-! ### FIGD (R160) -/

/-- Settles O32: the two policies; what REFUSE leaves open is the free draw. -/
theorem figdCompletes : Obligations.FigdCompletes := by
  intro s
  have hexec : exec .figd s = .next (s.applyFigd.setPhase .idle) := rfl
  refine ⟨fun hstub => ?_, fun hrefuse => ?_⟩ <;> rw [hexec, State.applyFigd]
  · rw [hstub]
    rfl
  · rw [hrefuse]
    exact ⟨_, _, _, _, _, _, _, rfl⟩

/-! ### DMAR, DMAW and the inputs of other agents (R165 to R167, R183) -/

/-- A status bit that was written, and the ones that were not. -/
theorem statusPut_spec (sr : Byte) (b : StatusBit) (v : Bool) :
    statusGet (statusPut sr b v) b = v ∧ ∀ x : StatusBit, x ≠ b → statusGet (statusPut sr b v) x = statusGet sr x :=
  ⟨statusGet_put_self sr b v, fun _ => statusGet_put_ne sr v⟩

/-- DRQ is driven high unless it is (R256). -/
theorem State.raiseDrq_eq (s : State) :
    s.raiseDrq =
      { s with
        drq := true, out := { s.out with lines := s.out.lines ++ if s.drq then [] else [⟨.drq, true⟩] } } := by
  cases hdrq : s.drq with
  | true =>
    simp only [State.raiseDrq, hdrq, if_true, List.append_nil]
    rw [← hdrq]
  | false =>
    simp only [State.raiseDrq, hdrq, Bool.false_eq_true, if_false]
    rfl

/-- Settles O34: DMAW is DMAR in every respect. -/
theorem dmaRequestsComplete : Obligations.DmaRequestsComplete := by
  intro s t m
  have hexec : exec (.dmar t m) s = .next ((s.applyDma t m).setPhase .idle) := rfl
  have hsame : exec (.dmaw t m) s = exec (.dmar t m) s := rfl
  rw [hsame, hexec, State.applyDma, State.raiseDrq_eq]
  exact ⟨statusPut s.sr .dma true, ⟨rfl, rfl⟩, statusPut_spec s.sr .dma true⟩

/-- DRQ is driven low if it was high (R167, R256). -/
theorem State.dmaEnd_eq (s : State) :
    s.dmaEnd =
      { s with
        sr := statusPut s.sr .dma false, drq := false
        out := { s.out with lines := s.out.lines ++ if s.drq then [⟨.drq, false⟩] else [] } } := by
  cases hdrq : s.drq with
  | true =>
    simp only [State.dmaEnd, State.setStatus_drq, hdrq, if_true]
    rfl
  | false =>
    simp only [State.dmaEnd, State.setStatus_drq, hdrq, Bool.false_eq_true, if_false, List.append_nil]
    rw [← hdrq]
    rfl

/-- Settles O37: each event is handled whole. -/
theorem environmentInputs : Obligations.EnvironmentInputs := by
  intro s rest
  refine ⟨fun hev => ⟨statusPut s.sr .dma false, ?_, statusPut_spec s.sr .dma false⟩,
    fun a hev => ⟨statusPut s.sr .lpd true, step_cons hev, statusPut_spec s.sr .lpd true⟩,
    fun a v hev => ⟨_, step_cons hev, ?_, fun x hx => Memory.readByte_writeWord_of_ne _ _ _ _ hx⟩⟩
  · exact (step_cons hev).trans (congrArg Host.Outcome.next (State.dmaEnd_eq { s with events := rest }))
  · exact (Memory.readWord_writeWord _ _ _ _).trans (if_pos rfl)

end Sys2Proof.Machine

/-! ## GCHRD (R162) -/

namespace Sys2Proof.Machine

/-- The data of the dots of a drawn row, each pattern bit `z` times, bit 0 first (R162). -/
def rowDots (pat : Byte) (z c : Nat) : Word := if pat.getLsbD (c / z) then 0xFFFF#16 else 0#16

/-- Display memory after `n` drawn rows of `8 z` dots, the r-th with the pattern `pat r` from where it starts (R162). -/
def State.memRows (s : State) (pat : Nat → Byte) (z n : Nat) : Memory :=
  (List.range n).foldl
    (fun m r =>
      s.memPlotted m (s.addr.advanceN s.pitch (rowDirection s.fig.dir) r) (rowDots (pat r) z) 0xFFFF#16 (8 * z))
    s.mem

/-- The state after `n` drawn rows: the address registers are `n` row steps from where they began. -/
def State.afterRows (s : State) (pat : Nat → Byte) (z n : Nat) : State :=
  { s with mem := s.memRows pat z n, addr := s.addr.advanceN s.pitch (rowDirection s.fig.dir) n }

/-- One drawn row more. -/
theorem State.drawRow_afterRows (s : State) (pat : Nat → Byte) {z : Nat} (hz : 0 < z) (n : Nat) :
    (s.afterRows pat z n).drawRow (pat n) z = s.afterRows pat z (n + 1) := by
  rw [State.drawRow_eq _ _ hz, State.afterRows, State.afterRows, AddrRegs.advanceN_succ, State.memRows, State.memRows,
    List.range_succ, List.foldl_append]
  rfl

/-- A pattern row drawn `k` times, `k` at most `z`: the pattern is the same in each of the drawn rows (R162). -/
theorem State.drawRow_iterate_afterRows (s : State) {pat : Nat → Byte} {z k : Nat} (hk : k ≤ z) {p : Byte} {n : Nat}
    (hp : ∀ j, j < k → pat (n + j) = p) :
    Nat.iterate (fun u => State.drawRow u p z) k (s.afterRows pat z n) = s.afterRows pat z (n + k) := by
  induction k with
  | zero => rfl
  | succ k ih =>
    rw [iterate_succ_last, ih (Nat.le_of_lt hk) fun j hj => hp j (Nat.lt_succ_of_lt hj),
      ← hp k (Nat.lt_succ_self k)]
    exact s.drawRow_afterRows pat (Nat.zero_lt_of_lt hk) (n + k)

/-- The pattern byte of a drawn row, `Z` rows to each, from `ra[15]` down (R162). -/
def State.rowPattern (s : State) (r : Nat) : Byte := bankGet s.ra (BitVec.ofNat 4 (15 - r / s.zoom.gchr.toNat))

/-- The first `k` pattern rows, each drawn as often as the zoom factor says; a factor of 0 draws none. -/
theorem State.drawRows_foldl (s : State) (k : Nat) :
    (List.range k).foldl
        (fun u r => State.drawRows u (bankGet u.ra (BitVec.ofNat 4 (15 - r))) u.zoom.gchr.toNat) s =
      s.afterRows s.rowPattern s.zoom.gchr.toNat (k * s.zoom.gchr.toNat) := by
  induction k with
  | zero =>
    rw [Nat.zero_mul]
    rfl
  | succ k ih =>
    rw [List.range_succ, List.foldl_append, ih, List.foldl_cons, List.foldl_nil, Nat.succ_mul]
    refine s.drawRow_iterate_afterRows le_rfl fun j (hj : j < s.zoom.gchr.toNat) => ?_
    have hrow : (k * s.zoom.gchr.toNat + j) / s.zoom.gchr.toNat = k := by
      rw [Nat.mul_comm, Nat.mul_add_div (Nat.zero_lt_of_lt hj), Nat.div_eq_of_lt hj, Nat.add_zero]
    rw [State.rowPattern, hrow]
    rfl

/-- A run of drawn rows leaves every byte outside the words of its dots. -/
theorem State.readByte_memRows (s : State) (pat : Nat → Byte) (z n : Nat) {x : Nat}
    (h : ∀ r c, r < n → c < 8 * z →
      x / 2 ≠ s.vramIndex
        (((s.addr.advanceN s.pitch (rowDirection s.fig.dir) r).advanceN s.pitch s.fig.dir c).ead)) :
    Memory.readByte (s.memRows pat z n) x = Memory.readByte s.mem x := by
  induction n with
  | zero => rfl
  | succ n ih =>
    rw [State.memRows, List.range_succ, List.foldl_append, List.foldl_cons, List.foldl_nil,
      State.readByte_memPlotted _ _ _ _ _ fun c hc => h n c (Nat.lt_succ_self n) hc]
    exact ih fun r c hr => h r c (Nat.lt_succ_of_lt hr)

/-- Settles O33: the drawn rows are `State.afterRows`, its mask with the whole word for a lane is the mask. -/
theorem gchrdCompletes : Obligations.GchrdCompletes := by
  intro s
  have hexec : exec .gchrd s = .next (s.applyGchrd.setPhase .idle) := rfl
  have hlane (w : Word) : w &&& 0xFFFF#16 = w := BitVec.and_allOnes
  rw [hexec, State.applyGchrd, s.drawRows_foldl 8]
  refine ⟨s.memRows s.rowPattern s.zoom.gchr.toNat (8 * s.zoom.gchr.toNat), rfl, ?_,
    fun x hx => s.readByte_memRows _ _ _ hx⟩
  simp only [State.memRows, State.memPlotted, hlane]
  rfl

end Sys2Proof.Machine

/-! ## A word written and read back (R155, R158) -/

namespace Sys2Proof.Machine

/-- What the set-up and write commands of the exchange leave for the ones behind them: an empty WRITE queue, the same
parameters and repeat count, and nothing read. -/
structure SetsUp (s t : State) : Prop where
  ready : t.WriteReady
  cfg   : t.cfg = s.cfg
  dc    : t.fig.dc = s.fig.dc
  reads : t.out.reads = s.out.reads

theorem SetsUp.trans {s t u : State} (h : SetsUp s t) (h' : SetsUp t u) : SetsUp s u :=
  ⟨h'.ready, h'.cfg.trans h.cfg, h'.dc.trans h.dc, h'.reads.trans h.reads⟩

/-- MASK as the host sees it. -/
theorem delivers_mask {s : State} (hs : s.WriteReady) (lo hi : Byte) :
    ∃ t, Delivers (commandWrites s.cfg.portMap ⟨.mask, [lo, hi]⟩) s t ∧ SetsUp s t
      ∧ t.addr.mask = wordOf lo hi := by
  obtain ⟨d, t, hd, hrun, hexec, -⟩ := delivers_applied (i := .mask) rfl hs (ps := [lo, hi]) rfl
  have hcount : d.pcount = 2#4 := BitVec.eq_of_toNat_eq hd.pcount
  rw [exec, execMask, fixedArity_last State.applyMask (s := s.holding d) (by decide) hcount] at hexec
  cases hexec
  refine ⟨_, hrun, ⟨fun _ => rfl, rfl, rfl, rfl⟩, ?_⟩
  show wordOf (prGet d.pr 1#4) (prGet d.pr 2#4) = _
  rw [hd.param (by decide), hd.param (by decide)]
  rfl

/-- CURS as the host sees it: the address is that of the bytes sent, and neither the mask nor a word of memory moves. -/
theorem delivers_curs_address {s : State} (hs : s.WriteReady) (p1 p2 p3 p4 : Byte) :
    ∃ t, Delivers (commandWrites s.cfg.portMap ⟨.curs, [p1, p2, p3, p4]⟩) s t ∧ SetsUp s t
      ∧ t.addr.ead = cursEad [encode .curs, p1, p2, p3, p4] ∧ t.addr.mask = s.addr.mask ∧ t.mem = s.mem := by
  obtain ⟨d, hd, hrun⟩ := delivers_curs hs p1 p2 p3 p4
  refine ⟨_, hrun, ⟨fun _ => rfl, rfl, rfl, rfl⟩, ?_, rfl, rfl⟩
  show cursEad d.pr = _
  rw [cursEad, hd.pr, hd.pr, hd.pr]
  rfl

/-- The two bytes of a word unit of WDAT: the first waits in the dispatcher, the second runs the unit (R94). -/
theorem delivers_wdat_word {s : State} (hs : s.WriteReady) (m : ModMode) (lo hi : Byte) :
    ∃ d t, Dispatcher.AwaitsWith { s.disp with xtype := .word, mod := m } (.wdat .word m) [lo, hi] d
      ∧ exec (.wdat .word m) (s.holding d) = .next t
      ∧ Delivers (commandWrites s.cfg.portMap ⟨.wdat .word m, [lo, hi]⟩) s t := by
  have hd := Dispatcher.awaitsWith_load { s.disp with xtype := .word, mod := m } s.cfg (.wdat .word m)
  have hlo := hd.store (Nat.zero_lt_succ _) lo
  have hhi := hlo.store (Nat.one_lt_succ_succ _) hi
  have hstart := (portWrite_runs_command hs (writePortAt_commandOffset _) (decode_encode (.wdat .word m))).trans
    (exec_wdat_first rfl .word m)
  have hwait := (portWrite_holding hd s lo).trans (exec_wdat_wait (BitVec.eq_of_toNat_eq hlo.pcount) rfl .word m)
  obtain ⟨t, hunit⟩ := exec_total (.wdat .word m) (s.holding (_ : Dispatcher))
  exact ⟨_, t, hhi, hunit, (delivers_portWrite hs hstart).append ((delivers_portWrite (fun _ => rfl) hwait).append
    (delivers_portWrite (fun _ => rfl) ((portWrite_holding hlo s hi).trans hunit)))⟩

/-- Replacing through a full mask and the lane of a word leaves the data (R156). -/
theorem modifyWord_replace_full (old data : Word) :
    modifyWord .replace old data (0xFFFF#16 &&& laneOf .word) = data := by
  have hkeep : data &&& 0xFFFF#16 = data := BitVec.and_allOnes
  simp [modifyWord, laneOf, hkeep]

/-- One write of a transfer (R155). -/
theorem State.memPlotted_one (s : State) (mem : Memory) (a : AddrRegs) (data : Nat → Word) (lane : Word) :
    s.memPlotted mem a data lane 1 =
      Memory.writeWord mem (s.vramIndex a.ead)
        (modifyWord s.disp.mod (Memory.readWord mem (s.vramIndex a.ead)) (data 0) (a.mask &&& lane)) := rfl

/-- A word unit of WDAT without a repeat count, through a full mask, replaces the word at `ead`. -/
theorem delivers_wdat_replace {s : State} (hs : s.WriteReady) (hdc : s.fig.dc = 0#14)
    (hmask : s.addr.mask = 0xFFFF#16) (lo hi : Byte) :
    ∃ t, Delivers (commandWrites s.cfg.portMap ⟨.wdat .word .replace, [lo, hi]⟩) s t ∧ SetsUp s t
      ∧ t.mem = Memory.writeWord s.mem (s.vramIndex s.addr.ead) (wordOf lo hi) := by
  obtain ⟨d, t, hd, hexec, hrun⟩ := delivers_wdat_word hs .replace lo hi
  have hcount : d.pcount = 2#4 := BitVec.eq_of_toNat_eq hd.pcount
  have hword : d.xtype = .word := hd.xtype
  have hmod : d.mod = .replace := hd.mod
  have hdata : wdatData .word d.pr = wordOf lo hi := by
    rw [wdatData, hd.param (by decide), hd.param (by decide)]
    rfl
  rw [exec_wdat_unit_eq (s := s.holding d) (hcount ▸ by decide) (hcount.trans (hword ▸ rfl)) (hword ▸ by decide)]
    at hexec
  cases hexec
  refine ⟨_, hrun, ⟨fun _ => rfl, rfl, hdc.symm, rfl⟩, ?_⟩
  show (s.holding d).memPlotted s.mem s.addr (fun _ => wdatData d.xtype d.pr) (laneOf d.xtype) (s.fig.dc.toNat + 1) = _
  rw [hdc, hword, hdata]
  refine (State.memPlotted_one _ _ _ _ _).trans ?_
  show Memory.writeWord s.mem (s.vramIndex s.addr.ead) (modifyWord d.mod _ _ _) = _
  rw [hmod, hmask, modifyWord_replace_full]

/-- RDAT of a word without a repeat count: the READ queue holds the two halves of the word at `ead`. -/
theorem delivers_rdat_word {s : State} (hs : s.WriteReady) (hdc : s.fig.dc = 0#14) (m : ModMode) :
    ∃ t, Delivers (commandWrites s.cfg.portMap ⟨.rdat .word m, []⟩) s t ∧ t.FifoOk ∧ t.fifoDir = .read ∧ t.cfg = s.cfg
      ∧ t.fifo = (rdatBytes .word (s.memRead s.addr.ead)).map (fun b => ⟨b, false⟩)
      ∧ t.out.reads = s.out.reads := by
  set u := s.holding (s.disp.load s.cfg.prSize (encode (.rdat .word m)) (.rdat .word m))
  have hone : u.rdatStream .word (u.fig.dc.toNat + 1) = rdatBytes .word (s.memRead s.addr.ead) := by
    show u.rdatStream .word (s.fig.dc.toNat + 1) = _
    rw [hdc]
    exact List.append_nil _
  obtain ⟨sr, hexec, -⟩ := exec_rdat_valid (s := u) rfl (t := .word) (by decide) m
  have hok : ((u.applyRdat .word m).setPhase .idle).FifoOk :=
    (fifoOk_of_cleared (s := u) rfl rfl).applyRdat .word m
  have hwrite := (portWrite_runs_command hs (writePortAt_commandOffset _) (decode_encode (.rdat .word m))).trans hexec
  have happlied : (u.applyRdat .word m).setPhase .idle = _ := Host.Outcome.next.inj hexec
  rw [happlied] at hok
  refine ⟨_, delivers_portWrite hs hwrite, hok, rfl, rfl, ?_, rfl⟩
  show ((u.rdatStream .word (u.fig.dc.toNat + 1)).take 16).map _ = _
  rw [hone]
  rfl

/-- Settles O39: MASK and CURS prepare the write, the second CURS returns to the word, which RDAT queues. -/
theorem wdatReadsBackThroughRdat : Obligations.WdatReadsBackThroughRdat := by
  intro s p1 p2 p3 p4 lo hi hs hdc
  obtain ⟨t1, hmask, h1, hfull⟩ := delivers_mask hs 0xFF#8 0xFF#8
  obtain ⟨t2, hcurs, h2, hto, hkeep, -⟩ := delivers_curs_address h1.ready p1 p2 p3 p4
  have h12 := h1.trans h2
  obtain ⟨t3, hwdat, h3, hmem⟩ :=
    delivers_wdat_replace h2.ready (h12.dc.trans hdc) (hkeep.trans (hfull.trans (by decide))) lo hi
  have h13 := h12.trans h3
  obtain ⟨t4, hback, h4, hto', -, hsame⟩ := delivers_curs_address h3.ready p1 p2 p3 p4
  have h14 := h13.trans h4
  obtain ⟨t5, hrdat, hok, hdir, hcfg, hqueue, hreads⟩ := delivers_rdat_word h4.ready (h14.dc.trans hdc) .replace
  have hread : t4.memRead t4.addr.ead = wordOf lo hi := by
    have hplace : t4.vramIndex t4.addr.ead = t2.vramIndex t2.addr.ead := by
      rw [State.vramIndex, State.vramIndex, hto, hto', h4.cfg, h3.cfg]
    rw [State.memRead, hplace, hsame, hmem, Memory.readWord_writeWord, if_pos rfl]
  have hbytes : t5.fifo = [lo, hi].map (fun b => ⟨b, false⟩) := by
    rw [hqueue, hread, rdatBytes, loByte_wordOf, hiByte_wordOf]
  obtain ⟨t, hdata, -, -, -, hout⟩ := delivers_dataReads [lo, hi] hok (readPortAt_one _) hdir hbytes
  rw [h1.cfg] at hcurs
  rw [h12.cfg] at hwdat
  rw [h13.cfg] at hback
  rw [h14.cfg] at hrdat
  have hrun := (hmask.append (hcurs.append (hwdat.append (hback.append (hrdat.append hdata))))).run_feed
  exact ⟨t.withEvents s.events, hrun, hout.trans (congrArg (· ++ _) (hreads.trans h14.reads))⟩

end Sys2Proof.Machine

/-! ## The read-back commands (R180, R182) -/

namespace Sys2Proof.Machine

/-- Result bytes that leave room in the queue, read back from a WRITE queue: the whole READ queue, with its status. -/
theorem State.readBack_complete {s : State} (hd : s.fifoDir = .write) {bs : List Byte} (hpos : 0 < bs.length)
    (hroom : bs.length < 16) :
    ∃ sr, (s.setDirection .read).enqueueResults bs =
        { s with fifo := bs.map (fun b => ⟨b, false⟩), fifoDir := .read, sr := sr }
      ∧ statusGet sr .dr = true ∧ statusGet sr .fe = false ∧ statusGet sr .ff = false
      ∧ ∀ x : StatusBit, x ≠ .fe → x ≠ .ff → x ≠ .dr → statusGet sr x = s.status x := by
  obtain ⟨sr, hqueued⟩ := State.readBack_eq hd (Nat.le_of_lt hroom)
  have hturned : (s.setDirection .read).FifoOk := by
    rw [State.setDirection_switch (by simp [hd])]
    exact fifoOk_of_cleared rfl rfl
  have hok := hturned.enqueueResults (s.setDirection_fifoDir .read) bs
  have hother := s.status_readBack_other bs
  rw [hqueued] at hok hother
  obtain ⟨-, hfe, hff, hdr, -⟩ := hok
  refine ⟨sr, hqueued, hdr.trans ?_, hfe.trans ?_, hff.trans ?_, hother⟩
  · simp [hpos]
  · simp [List.ne_nil_of_length_pos hpos]
  · simp [fifoDepth, Nat.ne_of_lt hroom]

theorem addrBytes_length (a : VAddr) : (addrBytes a).length = 3 := rfl

theorem dotBytes_length_le (n : CurdDadBytes) (dad : BitVec 4) : (dotBytes n dad).length ≤ 2 := by
  cases n with
  | two => exact Nat.le_refl 2
  | one => exact Nat.le_succ 1

theorem dotBytes_one (dad : BitVec 4) : dotBytes .one dad = [BitVec.ofNat 8 (16 * dad.toNat)] := by
  have hdot : dad ++ 0#4 = BitVec.ofNat 8 (16 * dad.toNat) := BitVec.eq_of_toNat_eq (by
    rw [toNat_append_mul, BitVec.toNat_ofNat, BitVec.toNat_ofNat]
    omega)
  rw [dotBytes, hdot]

/-- Settles O35: the results are the whole READ queue; each form of the dot address has its bytes as numbers. -/
theorem curdCompletes : Obligations.CurdCompletes := by
  intro s hd
  have hlen := addrBytes_length s.addr.ead
  have hdot := dotBytes_length_le s.cfg.curdDadBytes s.addr.dad
  obtain ⟨sr, hqueued, hstatus⟩ :=
    State.readBack_complete hd (bs := addrBytes s.addr.ead ++ dotBytes s.cfg.curdDadBytes s.addr.dad)
      (by rw [List.length_append]; omega) (by rw [List.length_append]; omega)
  refine ⟨sr, ?_, hstatus⟩
  rw [exec_curd, State.applyCurd, hqueued, addrBytes_eq]
  cases s.cfg.curdDadBytes with
  | two => rw [dotBytes_two]; rfl
  | one => rw [dotBytes_one]; rfl

theorem exec_lprd (s : State) : exec .lprd s = .next (s.applyLprd.setPhase .idle) := rfl

/-- Settles O36: the results are the whole READ queue, and clearing light-pen-detect moves no other status bit. -/
theorem lprdCompletes : Obligations.LprdCompletes := by
  intro s hd
  have hlen := addrBytes_length s.lad
  obtain ⟨sr, hqueued, hdr, hfe, hff, hother⟩ :=
    State.readBack_complete hd (bs := addrBytes s.lad) (by omega) (by omega)
  have hkept {x : StatusBit} (hx : x ≠ .lpd) : statusGet (statusPut sr .lpd false) x = statusGet sr x :=
    statusGet_put_ne sr false hx
  refine ⟨statusPut sr .lpd false, ?_, statusGet_put_self _ _ _, (hkept (by decide)).trans hdr,
    (hkept (by decide)).trans hfe, (hkept (by decide)).trans hff,
    fun x hxfe hxff hxdr hxlpd => (hkept hxlpd).trans (hother x hxfe hxff hxdr)⟩
  rw [exec_lprd, State.applyLprd, hqueued, addrBytes_eq]
  rfl

end Sys2Proof.Machine

/-! ## The renderer's layout (R190 to R195) -/

namespace Sys2Proof.Machine

/-! ### The partition table -/

section
variable (ra : Vector Byte 16) (i : Nat)

theorem partitionAt_sad :
    (partitionAt ra i).sad.toNat = (bankGet ra (BitVec.ofNat 4 (4 * i + 0))).toNat
      + 256 * (bankGet ra (BitVec.ofNat 4 (4 * i + 1))).toNat
      + 65536 * ((bankGet ra (BitVec.ofNat 4 (4 * i + 2))).toNat % 4) :=
  (toNat_append_mul _ _).trans (by simp only [toNat_append_mul, toNat_field]; omega)

theorem partitionAt_len :
    (partitionAt ra i).len.toNat = 16 * ((bankGet ra (BitVec.ofNat 4 (4 * i + 3))).toNat % 64)
      + (bankGet ra (BitVec.ofNat 4 (4 * i + 2))).toNat / 16 :=
  (toNat_append_mul _ _).trans (by simp only [toNat_field]; omega)

theorem partitionAt_im :
    (partitionAt ra i).im = decide ((bankGet ra (BitVec.ofNat 4 (4 * i + 3))).toNat / 64 % 2 = 1) :=
  getLsbD_eq_decide (bankGet ra (BitVec.ofNat 4 (4 * i + 3))) 6

theorem partitionAt_wd :
    (partitionAt ra i).wd = decide ((bankGet ra (BitVec.ofNat 4 (4 * i + 3))).toNat / 128 = 1) :=
  (getLsbD_eq_decide (bankGet ra (BitVec.ofNat 4 (4 * i + 3))) 7).trans (decide_eq_decide.mpr (by omega))

@[simp] theorem partitionTop_zero : partitionTop ra 0 = 0 := rfl

theorem partitionTop_succ : partitionTop ra (i + 1) = partitionTop ra i + (partitionAt ra i).len.toNat + 1 := rfl

theorem partitionTop_strictMono : StrictMono (partitionTop ra) :=
  strictMono_nat_of_lt_succ fun i => Nat.lt_succ_of_le (Nat.le_add_right (partitionTop ra i) _)

end

/-! ### The mode byte -/

section
variable (mode : Byte)

theorem displayMode_eq :
    displayMode mode =
      if mode.getLsbD 5 then (if mode.getLsbD 1 then .invalid else .character)
      else if mode.getLsbD 1 then .graphics else .mixed := by
  unfold displayMode
  cases mode.getLsbD 5 <;> cases mode.getLsbD 1 <;> rfl

theorem interlace_on_iff : interlace mode = .on ↔ mode.getLsbD 3 = true ∧ mode.getLsbD 0 = true := by
  unfold interlace
  cases mode.getLsbD 3 <;> cases mode.getLsbD 0 <;> decide

end

theorem partitionCount_eq_zero_iff (m : DisplayMode) : partitionCount m = 0 ↔ m = .invalid := by
  cases m <;> decide

/-- Settles O41: the fields of a descriptor and of the mode byte are their bits as numbers. -/
theorem partitionLayout : Obligations.PartitionLayout := by
  refine ⟨fun ra i _ => ⟨partitionAt_sad ra i, partitionAt_len ra i, partitionAt_im ra i, partitionAt_wd ra i, rfl,
    by rw [partitionTop_succ, partitionAt_len]⟩, fun s => ?_⟩
  have hmode := displayMode_eq s.geom.mode
  have hlace := interlace_on_iff s.geom.mode
  simp only [getLsbD_eq_decide, decide_eq_true_eq] at hmode hlace
  refine ⟨fun h5 => ?_, fun h5 h1 => ?_, fun h5 h1 => ?_,
    fun p => ⟨fun h5 h1 => ?_, fun h5 h1 => ?_, fun h5 h1 => ?_⟩,
    fun hon => if_pos (hlace.mpr hon), fun hoff => if_neg (mt hlace.mp hoff), rfl⟩
  · rw [State.partitions, hmode, if_neg h5]
    split <;> rfl
  all_goals simp only [State.partitions, hmode, h5, h1, if_true, if_false, partitionCount, partitionIsImage]

/-! ### The partition that shows a source line -/

/-- Partition `i` is walked and holds source line `line` (R193, R197). -/
structure State.Shows (s : State) (i line : Nat) : Prop where
  walked : i < s.partitions
  top    : partitionTop s.ra i ≤ line
  bottom : line < partitionTop s.ra (i + 1)

/-- Partitions do not overlap, so the first that holds a line is the only one. -/
theorem State.partitionOf_eq_some_iff (s : State) (line i : Nat) : s.partitionOf line = some i ↔ s.Shows i line := by
  simp only [State.partitionOf, List.find?_range_eq_some, Bool.and_eq_true, decide_eq_true_eq, List.mem_range]
  constructor
  · rintro ⟨⟨htop, hbottom⟩, hwalked, -⟩
    exact ⟨hwalked, htop, hbottom⟩
  · rintro ⟨hwalked, htop, hbottom⟩
    refine ⟨⟨htop, hbottom⟩, hwalked, fun j hj => ?_⟩
    have hend : partitionTop s.ra (j + 1) ≤ line :=
      ((partitionTop_strictMono s.ra).monotone (Nat.succ_le_of_lt hj)).trans htop
    simp [Nat.not_lt.mpr hend]

/-- Partitions lie one after another from line 0, so that a line above the end of `n` of them lies in one. -/
theorem exists_partition_of_lt (ra : Vector Byte 16) {n line : Nat} (h : line < partitionTop ra n) :
    ∃ i < n, partitionTop ra i ≤ line ∧ line < partitionTop ra (i + 1) := by
  induction n with
  | zero => exact absurd h (Nat.not_lt_zero line)
  | succ n ih =>
    obtain hlt | hle := Nat.lt_or_ge line (partitionTop ra n)
    · obtain ⟨i, hi, hline⟩ := ih hlt
      exact ⟨i, Nat.lt_succ_of_lt hi, hline⟩
    · exact ⟨n, Nat.lt_succ_self n, hle, h⟩

theorem State.exists_shows_iff (s : State) (line : Nat) : (∃ i, s.Shows i line) ↔ line < s.totalLines := by
  constructor
  · rintro ⟨i, hwalked, -, hbottom⟩
    exact hbottom.trans_le ((partitionTop_strictMono s.ra).monotone (Nat.succ_le_of_lt hwalked))
  · intro h
    obtain ⟨i, hwalked, htop, hbottom⟩ := exists_partition_of_lt s.ra h
    exact ⟨i, hwalked, htop, hbottom⟩

end Sys2Proof.Machine

/-! ## The cells of a line (R194 to R204) -/

namespace Sys2Proof.Machine

/-- The callback of cell `c` of output line `y` when partition `i` shows its source line. -/
def State.cellOf (s : State) (i y c : Nat) : Pixel :=
  let p     := partitionAt s.ra i
  let image := partitionIsImage (displayMode s.geom.mode) p
  let rel   := y / s.vRepeat - partitionTop s.ra i
  s.cellPixel i y image p.wd (s.lineBase p (s.rowOf image rel)) (s.linecountOf image rel) c

/-- A line that a partition shows is one callback per cell, in order of cell (R197). -/
theorem State.linePixels_of_shows {s : State} {y i : Nat} (h : s.Shows i (y / s.vRepeat)) :
    s.linePixels y = (List.range s.geom.aw.toNat).map (s.cellOf i y) := by
  rw [State.linePixels, (s.partitionOf_eq_some_iff _ _).mpr h]
  rfl

/-- A line past the last partition walked has no callback (R197). -/
theorem State.linePixels_of_past {s : State} {y : Nat} (h : ¬ y / s.vRepeat < s.totalLines) : s.linePixels y = [] := by
  have hnone : s.partitionOf (y / s.vRepeat) = none :=
    Option.eq_none_iff_forall_ne_some.mpr fun i hi =>
      h ((s.exists_shows_iff _).mp ⟨i, (s.partitionOf_eq_some_iff _ _).mp hi⟩)
  rw [State.linePixels, hnone]

/-- What a line is: the cells of the partition that shows it, or nothing. -/
theorem State.linePixels_cases (s : State) (y : Nat) :
    (y / s.vRepeat < s.totalLines
        ∧ ∃ i, s.Shows i (y / s.vRepeat) ∧ s.linePixels y = (List.range s.geom.aw.toNat).map (s.cellOf i y))
      ∨ (¬ y / s.vRepeat < s.totalLines ∧ s.linePixels y = []) := by
  by_cases hline : y / s.vRepeat < s.totalLines
  · obtain ⟨i, hi⟩ := (s.exists_shows_iff _).mpr hline
    exact .inl ⟨hline, i, hi, State.linePixels_of_shows hi⟩
  · exact .inr ⟨hline, State.linePixels_of_past hline⟩

theorem State.linePixels_length (s : State) (y : Nat) :
    (s.linePixels y).length = if y / s.vRepeat < s.totalLines then s.geom.aw.toNat else 0 := by
  obtain ⟨hline, i, -, hcells⟩ | ⟨hline, hnone⟩ := s.linePixels_cases y
  · rw [hcells, if_pos hline, List.length_map, List.length_range]
  · rw [hnone, if_neg hline, List.length_nil]

/-- The call in place `c` is the one of cell `c`. -/
theorem State.cellOf_of_getElem? {s : State} {y c : Nat} {px : Pixel} (h : (s.linePixels y)[c]? = some px) :
    ∃ i, s.Shows i (y / s.vRepeat) ∧ px = s.cellOf i y c := by
  obtain ⟨-, i, hi, hcells⟩ | ⟨-, hnone⟩ := s.linePixels_cases y
  · rw [hcells, List.getElem?_map, Option.map_eq_some_iff] at h
    obtain ⟨c', hc', rfl⟩ := h
    obtain ⟨-, rfl⟩ := List.getElem?_eq_some_iff.mp hc'
    exact ⟨i, hi, by rw [List.getElem_range]⟩
  · rw [hnone] at h
    cases h

/-- The converse: cell `c` of a line that partition `i` shows makes the call in place `c`. -/
theorem State.getElem?_of_shows {s : State} {y i c : Nat} (h : s.Shows i (y / s.vRepeat)) (hc : c < s.geom.aw.toNat) :
    (s.linePixels y)[c]? = some (s.cellOf i y c) := by
  rw [State.linePixels_of_shows h, List.getElem?_map, List.getElem?_range hc]
  rfl

theorem State.cellOf_of_mem {s : State} {y : Nat} {px : Pixel} (h : px ∈ s.linePixels y) :
    ∃ i c, px = s.cellOf i y c := by
  obtain ⟨c, hc⟩ := List.mem_iff_getElem?.mp h
  obtain ⟨i, -, hpx⟩ := State.cellOf_of_getElem? hc
  exact ⟨i, c, hpx⟩

/-- Settles O42: every call is its cell's; the invalid mode walks no partition, so that no line is above its end. -/
theorem lineMakesOneCallPerCell : Obligations.LineMakesOneCallPerCell := by
  refine fun s y => ⟨s.linePixels_length y, fun c px hpx => ?_, fun hinvalid => ?_⟩
  · obtain ⟨i, -, rfl⟩ := State.cellOf_of_getElem? hpx
    exact ⟨rfl, rfl⟩
  · have htotal : s.totalLines = 0 := by
      rw [State.totalLines, State.partitions, (partitionCount_eq_zero_iff _).mpr hinvalid, partitionTop_zero]
    exact State.linePixels_of_past (htotal ▸ Nat.not_lt_zero _)

/-! ### Addresses and values -/

/-- The two sums of R194 and R196, reduced once. -/
theorem toNat_cellAddr_lineBase (s : State) (p : Partition) (row : Nat) (wide : Bool) (c : Nat) :
    (cellAddr wide (s.lineBase p row) c).toNat
      = (p.sad.toNat + row * s.pitch.toNat + (if wide then c / 2 else c)) % 2 ^ 18 := by
  simp only [cellAddr, State.lineBase, BitVec.toNat_add, BitVec.toNat_ofNat]
  omega

theorem toNat_cellValue (wide : Bool) (c : Nat) (w : Word) :
    (cellValue wide c w).toNat
      = if wide then (if c % 2 = 0 then w.toNat % 256 else w.toNat / 256) else w.toNat := by
  cases wide with
  | false => rfl
  | true =>
    by_cases hc : c % 2 = 0
    · simp only [cellValue, hc, if_true, BitVec.toNat_setWidth, toNat_loByte]
      omega
    · have hw := w.isLt
      simp only [cellValue, hc, if_true, if_false, BitVec.toNat_setWidth, toNat_hiByte]
      omega

/-- Settles O43: the cell's call, with its address and its value as numbers. -/
theorem cellShowsItsMemoryWord : Obligations.CellShowsItsMemoryWord := by
  intro s y i c hwalked htop hbottom hc
  refine ⟨_, State.getElem?_of_shows ⟨hwalked, htop, hbottom⟩ hc, rfl, rfl, rfl, (toNat_cellValue _ _ _).trans ?_⟩
  rw [State.memRead, State.vramIndex, toNat_cellAddr_lineBase]
  rfl

/-! ### Attributes -/

/-- What the gate passes: nothing over a blanked cell, and not both (R201). -/
theorem attrGate_exclusive (v l r : Bool) :
    (v = true → (attrGate v l r).1 = false ∧ (attrGate v l r).2 = false)
      ∧ ((attrGate v l r).1 = true → (attrGate v l r).2 = false) := by
  cases v <;> cases l <;> simp [attrGate]

/-- Settles O44: every call's attributes have passed the gate. -/
theorem attributePriority : Obligations.AttributePriority := by
  refine ⟨fun _ _ _ => rfl, fun s y px hpx => ?_⟩
  obtain ⟨i, c, rfl⟩ := State.cellOf_of_mem hpx
  exact attrGate_exclusive _ _ _

theorem State.rawAttr_standard {s : State} (h : s.cfg.rawAttr = .standard) (i c : Nat) (image : Bool) (addr : VAddr)
    (linecount : Nat) (value : Word) :
    s.rawAttr i c image addr linecount value = s.standardAttr image addr linecount := by
  simp only [State.rawAttr, h]

/-- The attributes of a cell under the default `RAW_ATTR`: only the display enable and the cursor show (R200, R201). -/
theorem State.cellPixel_standard {s : State} (h : s.cfg.rawAttr = .standard) (i y : Nat) (image wide : Bool)
    (base : VAddr) (linecount c : Nat) :
    s.cellPixel i y image wide base linecount c =
      { x := c, y := y, linecount := linecount, charcode := cellValue wide c (s.memRead (cellAddr wide base c))
        la := 0#2, lten := false, rvv := s.cursorHit image (cellAddr wide base c) linecount && s.de, vsp := !s.de
        gpa := 0#2, hlgt := false } := by
  simp [State.cellPixel, State.rawAttr_standard h, State.standardAttr, attrGate]

theorem State.cursorHit_iff (s : State) (image : Bool) (addr : VAddr) (linecount : Nat) :
    s.cursorHit image addr linecount = true ↔
      s.cursor.dc = true ∧ image = false ∧ addr.toNat = s.addr.ead.toNat ∧ s.cursor.ctop.toNat ≤ linecount
        ∧ linecount ≤ s.cursor.cbot.toNat
        ∧ (s.cursor.sc = true ∨ s.raster.blinkCtr.toNat < max s.cursor.br.toNat 1) := by
  simp [State.cursorHit, State.blinkOn, CursorRegs.blinkHalf, and_assoc, BitVec.toNat_eq]

/-- Settles O45: the gate blanks with the display off, and the cursor shows only in a text partition, where the row and
the scan line are those of text. -/
theorem blankingAndCursorAttributes : Obligations.BlankingAndCursorAttributes := by
  intro s y hstandard
  refine ⟨fun px hpx => ?_, fun i c hwalked htop hbottom hc => ?_⟩
  · obtain ⟨i, c, rfl⟩ := State.cellOf_of_mem hpx
    rw [State.cellOf, State.cellPixel_standard hstandard]
    exact ⟨rfl, rfl, rfl, rfl, rfl⟩
  · refine ⟨_, State.getElem?_of_shows ⟨hwalked, htop, hbottom⟩ hc, ?_⟩
    rw [State.cellOf, State.cellPixel_standard hstandard]
    dsimp only
    rw [Bool.and_eq_true, and_comm, State.cursorHit_iff, toNat_cellAddr_lineBase]
    cases partitionIsImage (displayMode s.geom.mode) (partitionAt s.ra i) with
    | true => simp
    | false => simp [State.rowOf, State.linecountOf]

/-! ### Frames -/

/-- The output line number of a cell is only passed on. -/
theorem State.cellOf_line (s : State) (i c : Nat) {y y' : Nat} (h : y / s.vRepeat = y' / s.vRepeat) :
    s.cellOf i y' c = { s.cellOf i y c with y := y' } := by
  rw [State.cellOf, State.cellOf, h]
  rfl

theorem State.linePixels_repeat (s : State) {y y' : Nat} (h : y / s.vRepeat = y' / s.vRepeat) :
    s.linePixels y' = (s.linePixels y).map (fun px => { px with y := y' }) := by
  obtain ⟨-, i, hi, hcells⟩ | ⟨hpast, hnone⟩ := s.linePixels_cases y
  · rw [hcells, State.linePixels_of_shows (h ▸ hi), List.map_map]
    exact List.map_congr_left fun c _ => s.cellOf_line i c h
  · rw [hnone, State.linePixels_of_past (h ▸ hpast), List.map_nil]

/-- Every output line of a frame shows a source line, so that each makes `aw` calls (R203). -/
theorem State.framePixels_length (s : State) :
    s.framePixels.length = s.totalLines * s.vRepeat * s.geom.aw.toNat := by
  have hline : ∀ y ∈ List.range (s.totalLines * s.vRepeat), (s.linePixels y).length = s.geom.aw.toNat := by
    intro y hy
    rw [s.linePixels_length, if_pos (Nat.div_lt_of_lt_mul (Nat.mul_comm _ _ ▸ List.mem_range.mp hy))]
  rw [State.framePixels, List.length_flatMap, List.map_congr_left hline, List.map_const', List.sum_replicate,
    List.length_range, smul_eq_mul]

/-- Settles O46: a frame is its lines, and a line depends on its number only through the source line it shows. -/
theorem frameCallsAndRepeats : Obligations.FrameCallsAndRepeats :=
  fun s => ⟨s.framePixels_length, fun _ _ h => s.linePixels_repeat h⟩

/-! ### Two render calls -/

/-- A line is rendered from neither the pending events nor the output streams (R205); a replaced `RAW_ATTR` sees neither
(R200). -/
theorem State.linePixels_ignores (s : State) (es : List Event) (out : Outputs) (y : Nat) :
    State.linePixels { s with events := es, out := out } y = s.linePixels y := rfl

theorem State.framePixels_ignores (s : State) (es : List Event) (out : Outputs) :
    State.framePixels { s with events := es, out := out } = s.framePixels :=
  List.flatMap_congr fun y _ => s.linePixels_ignores es out y

section
variable {e : Event} {pixels : State → List Pixel}
  (hcall : ∀ s, handleEvent e s = .next (s.emitPixels (pixels s)))
  (hignores : ∀ s es out, pixels { s with events := es, out := out } = pixels s)

include hcall hignores

/-- A render call takes its event and adds its callbacks. -/
theorem step_render {s : State} {rest : List Event} (hev : s.events = e :: rest) :
    step s = .next { s with events := rest, out := { s.out with pixels := s.out.pixels ++ pixels s } } := by
  rw [step_cons hev, hcall, hignores s rest s.out]
  rfl

/-- The second of two render calls adds what the first one added. -/
theorem run_two_renders {s : State} {rest : List Event} (hev : s.events = e :: e :: rest) :
    core.run 2 s =
      .next { s with events := rest, out := { s.out with pixels := s.out.pixels ++ pixels s ++ pixels s } } := by
  rw [run_succ (step_render hcall hignores hev), run_succ (step_render hcall hignores rfl), hignores s (e :: rest)]
  rfl

end

/-- Settles O47: what a call renders depends on nothing that a render call changes. -/
theorem renderingIsReadOnly : Obligations.RenderingIsReadOnly := by
  refine fun s y rest => ⟨fun hev => ?_, fun hev => ?_⟩
  · exact run_two_renders (pixels := fun s => s.linePixels y) (fun _ => rfl)
      (fun s es out => s.linePixels_ignores es out y) hev
  · exact run_two_renders (fun _ => rfl) State.framePixels_ignores hev

end Sys2Proof.Machine

/-! ## The tick (R221 to R230) -/

namespace Sys2Proof.Machine

/-! ### The levels of a position (R221, R226) -/

/-- The line event for a level that is `old` and is to be `new`, if it changes (R226, R256). -/
def lineChange (n : LineName) (old new : Bool) : List LineEvent := if new ≠ old then [⟨n, new⟩] else []

@[simp] theorem lineChange_same (n : LineName) (level : Bool) : lineChange n level level = [] := by simp [lineChange]

theorem lineChange_of_ne {n : LineName} {old new : Bool} (h : new ≠ old) : lineChange n old new = [⟨n, new⟩] := if_pos h

/-- Writing a status field with the value it has changes nothing. -/
@[simp] theorem statusPut_get (sr : Byte) (b : StatusBit) : statusPut sr b (statusGet sr b) = sr := by
  apply status_ext
  intro c
  rw [statusGet_put]
  split
  next h => rw [h]
  next => rfl

theorem State.updateVsync_eq (s : State) (n : Bool) :
    s.updateVsync n =
      { s with
        sr := statusPut s.sr .vsy n
        out := { s.out with lines := s.out.lines ++ lineChange .vsync (s.status .vsy) n } } := by
  unfold State.updateVsync
  split
  next h => rw [lineChange_of_ne h]; rfl
  next h =>
    obtain rfl : n = s.status .vsy := not_not.mp h
    simp [State.status]

theorem State.updateHsync_eq (s : State) (n : Bool) :
    s.updateHsync n =
      { s with
        raster := { s.raster with hsyncLevel := n }
        out := { s.out with lines := s.out.lines ++ lineChange .hsync s.raster.hsyncLevel n } } := by
  unfold State.updateHsync
  split
  next h => rw [lineChange_of_ne h]; rfl
  next h =>
    obtain rfl : n = s.raster.hsyncLevel := not_not.mp h
    simp

theorem State.updateBlank_eq (s : State) (n : Bool) :
    s.updateBlank n =
      { s with
        sr := statusPut s.sr .hbl n
        out := { s.out with lines := s.out.lines ++ lineChange .blank (s.status .hbl) n } } := by
  unfold State.updateBlank
  split
  next h => rw [lineChange_of_ne h]; rfl
  next h =>
    obtain rfl : n = s.status .hbl := not_not.mp h
    simp [State.status]

/-- The line events of the three levels brought to those of the position `(h, v)`, in the order of R230. -/
def State.levelEvents (s : State) (h v : Nat) : List LineEvent :=
  lineChange .vsync (s.status .vsy) (s.geom.vsyncAt v) ++ lineChange .hsync s.raster.hsyncLevel (s.geom.hsyncAt h)
    ++ lineChange .blank (s.status .hbl) (s.geom.hblankAt h)

/-- The status byte with the two levels of the position `(h, v)` it shows. -/
def State.levelStatus (s : State) (h v : Nat) : Byte :=
  statusPut (statusPut s.sr .vsy (s.geom.vsyncAt v)) .hbl (s.geom.hblankAt h)

theorem State.statusGet_levelStatus (s : State) (h v : Nat) (b : StatusBit) :
    statusGet (s.levelStatus h v) b =
      if b = .hbl then s.geom.hblankAt h else if b = .vsy then s.geom.vsyncAt v else s.status b := by
  simp only [State.levelStatus, statusGet_put, State.status]

/-- Everything `UpdateLevels` does. -/
theorem State.updateLevels_eq (s : State) (h v : Nat) :
    s.updateLevels h v =
      { s with
        sr := s.levelStatus h v, raster := { s.raster with hsyncLevel := s.geom.hsyncAt h }
        out := { s.out with lines := s.out.lines ++ s.levelEvents h v } } := by
  have hbl : statusGet (statusPut s.sr .vsy (s.geom.vsyncAt v)) .hbl = s.status .hbl :=
    statusGet_put_ne _ _ (by decide)
  simp only [State.updateLevels, State.updateBlank_eq, State.updateHsync_eq, State.updateVsync_eq, State.levelEvents,
    State.levelStatus, List.append_assoc]
  rw [← hbl]
  rfl

/-- `HblankAt` as one comparison (R221). -/
theorem Geometry.hblankAt_eq (g : Geometry) (h : Nat) :
    g.hblankAt h =
      !decide (g.hs.toNat + g.hbp.toNat ≤ h ∧ h < g.hs.toNat + g.hbp.toNat + g.aw.toNat) := by
  rw [Geometry.hblankAt, Bool.decide_and]

/-! ### The successor position (R222 to R225) -/

/-- In the ranges of R21 a line has at most 417 ticks. -/
theorem Geometry.Ok.htc_le {g : Geometry} (hg : g.Ok) : g.htc ≤ 417 := by
  obtain rfl | ⟨⟨-, haw⟩, ⟨-, hhs⟩, ⟨-, hhfp⟩, -, hhbp⟩ := hg
  · decide
  · rw [Geometry.htc, Geometry.hTotal]
    omega

/-- By the widths of its fields a geometry has at most 1180 lines. -/
theorem Geometry.vtc_le (g : Geometry) : g.vtc ≤ 1180 := by
  have hvs := g.vs.isLt
  have hvbp := g.vbp.isLt
  have hal := g.al.isLt
  have hvfp := g.vfp.isLt
  rw [Geometry.vtc, Geometry.vTotal]
  omega

theorem Geometry.htc_pos (g : Geometry) : 0 < g.htc := Nat.lt_of_lt_of_le Nat.one_pos (le_max_right _ _)

theorem Geometry.vtc_pos (g : Geometry) : 0 < g.vtc := Nat.lt_of_lt_of_le Nat.one_pos (le_max_right _ _)

section
variable (r : Raster) (g : Geometry) (master : Bool)

@[simp] theorem Raster.successor_hsyncLevel : (r.successor g master).hsyncLevel = r.hsyncLevel := by
  unfold Raster.successor
  split_ifs <;> rfl

@[simp] theorem Raster.successor_blinkCtr : (r.successor g master).blinkCtr = r.blinkCtr := by
  unfold Raster.successor
  split_ifs <;> rfl

/-- The column after one that is not the last of its line, where the lines fit the counter. -/
theorem Raster.successor_hnext (hg : g.htc ≤ 2 ^ 9) :
    (r.successor g master).hnext.toNat = if r.hnext.toNat + 1 < g.htc then r.hnext.toNat + 1 else 0 := by
  unfold Raster.successor
  split_ifs with hh
  · show (r.hnext + 1#9).toNat = _
    bv_omega
  all_goals rfl

theorem Raster.successor_vnext :
    (r.successor g master).vnext.toNat =
      if r.hnext.toNat + 1 < g.htc then r.vnext.toNat
      else if r.vnext.toNat + 1 < g.vtc then r.vnext.toNat + 1 else 0 := by
  have hvtc := g.vtc_le
  unfold Raster.successor
  by_cases hh : r.hnext.toNat + 1 < g.htc
  · simp only [if_pos hh]
  by_cases hv : r.vnext.toNat + 1 < g.vtc
  · simp only [if_neg hh, if_pos hv]
    bv_omega
  · simp only [if_neg hh, if_neg hv]
    rfl

/-- A raster that runs holds after the last position of a field, unless a master drives it (R225, R229). -/
theorem Raster.successor_vwait (hr : r.vwait = false) :
    (r.successor g master).vwait =
      (!master && !decide (r.hnext.toNat + 1 < g.htc) && !decide (r.vnext.toNat + 1 < g.vtc)) := by
  unfold Raster.successor
  by_cases hh : r.hnext.toNat + 1 < g.htc
  · simp [hh, hr]
  by_cases hv : r.vnext.toNat + 1 < g.vtc
  · simp [hh, hv, hr]
  · cases master <;> simp [hh, hv, hr]

/-- The successor of a position on a line of the field lies within the totals, whatever the geometry: a column counter
that overflowed would stand at 0. -/
theorem Raster.successor_inRange (hv : r.vnext.toNat < g.vtc) :
    (r.successor g master).hnext.toNat < g.htc ∧ (r.successor g master).vnext.toNat < g.vtc := by
  refine ⟨?_, ?_⟩
  · unfold Raster.successor
    split
    next hline =>
      show (r.hnext + 1#9).toNat < g.htc
      bv_omega
    next => split <;> exact g.htc_pos
  · rw [Raster.successor_vnext]
    split_ifs <;> omega

/-- A raster that starts to hold is a slave's, at (0,0) (R229). -/
theorem Raster.successor_holds (hr : r.vwait = false) (hw : (r.successor g master).vwait = true) :
    master = false ∧ (r.successor g master).hnext = 0#9 ∧ (r.successor g master).vnext = 0#11 := by
  rw [Raster.successor_vwait _ _ _ hr] at hw
  simp only [Bool.and_eq_true, Bool.not_eq_true', decide_eq_false_iff_not] at hw
  obtain ⟨⟨hm, hline⟩, hfield⟩ := hw
  simpa [Raster.successor, hline, hfield] using hm

end

/-! ### The tick -/

/-- The blink counter when the raster enters its next position: a field counts where it begins (R227). -/
def State.blinkEntered (s : State) : BitVec 6 :=
  if s.raster.hnext.toNat = 0 ∧ s.raster.vnext.toNat = 0 then blinkNext s.raster.blinkCtr s.cursor.blinkHalf
  else s.raster.blinkCtr

/-- A blink takes at most 62 fields, which the counter holds. -/
theorem blinkNext_toNat (ctr : BitVec 6) (c : CursorRegs) :
    (blinkNext ctr c.blinkHalf).toNat = (ctr.toNat + 1) % (2 * max c.br.toNat 1) := by
  have hbr := c.br.isLt
  rw [blinkNext, BitVec.toNat_ofNat, CursorRegs.blinkHalf]
  apply Nat.mod_eq_of_lt
  exact (Nat.mod_lt _ (by omega)).trans (by omega)

/-- The raster after a tick that is not held: the successor position, the HSYNC level and the blink counter of the
position entered (R224). -/
def State.rasterEntered (s : State) : Raster :=
  Raster.successor { s.raster with hsyncLevel := s.geom.hsyncAt s.raster.hnext.toNat, blinkCtr := s.blinkEntered }
    s.geom s.master

/-- Everything a tick that is not held does (R224). -/
theorem State.tick_eq {s : State} (hw : s.raster.vwait = false) :
    s.tick =
      { s with
        raster := s.rasterEntered, sr := s.levelStatus s.raster.hnext.toNat s.raster.vnext.toNat
        out := { s.out with
          lines := s.out.lines ++ s.levelEvents s.raster.hnext.toNat s.raster.vnext.toNat } } := by
  rw [State.tick, if_neg (by simp [hw]), State.enterPosition]
  simp only [State.updateLevels_eq, State.rasterEntered, State.blinkEntered]
  split <;> rfl

theorem State.tick_held {s : State} (hw : s.raster.vwait = true) : s.tick = s := if_pos hw

theorem ignoresEvents_tick : IgnoresEvents State.tick := by
  intro s es
  cases hw : s.raster.vwait with
  | true => rw [State.tick_held hw, State.tick_held (s := s.withEvents es) hw]
  | false =>
    rw [State.tick_eq hw, State.tick_eq (s := s.withEvents es) hw]
    rfl

/-- A step with a tick pending. -/
theorem step_tick {s : State} {rest : List Event} (hev : s.events = .tick :: rest) :
    step s = .next (s.tick.withEvents rest) := by
  rw [step_cons hev, ← ignoresEvents_tick s rest]
  rfl

/-- Settles O48: the levels are brought to those of the position entered, and the raster to its successor. -/
theorem tickEntersPosition : Obligations.TickEntersPosition := by
  intro s rest hev hw hg
  simp only [← Geometry.hblankAt_eq]
  refine ⟨s.rasterEntered, s.levelStatus s.raster.hnext.toNat s.raster.vnext.toNat, ?_,
    s.statusGet_levelStatus _ _ .vsy, ?_, s.statusGet_levelStatus _ _ .hbl, fun x hv hh => ?_, ?_, ?_, ?_, ?_⟩
  · rw [step_tick hev, State.tick_eq hw, State.levelEvents, ← List.append_assoc, ← List.append_assoc]
    rfl
  · exact Raster.successor_hsyncLevel _ _ _
  · rw [State.statusGet_levelStatus, if_neg hh, if_neg hv]
  · exact Raster.successor_hnext _ _ _ (hg.htc_le.trans (by decide))
  · exact Raster.successor_vnext _ _ _
  · exact Raster.successor_vwait _ _ _ hw
  · rw [State.rasterEntered, Raster.successor_blinkCtr, State.blinkEntered, apply_ite BitVec.toNat, blinkNext_toNat]

/-- Settles O49: each clause is one branch of the hold test or of the slave test. -/
theorem slaveHoldsForExternalVsync : Obligations.SlaveHoldsForExternalVsync := by
  intro s rest
  have vsync (hev : s.events = .extVsync :: rest) : step s = .next (State.extVsync { s with events := rest }) :=
    step_cons hev
  refine ⟨fun hev hw => ?_, fun hev hm => ?_, fun hev hm => ?_⟩
  · rw [step_tick hev, State.tick_held hw]
    rfl
  · rw [vsync hev, State.extVsync, if_neg (by simp [hm])]
    rfl
  · rw [vsync hev, State.extVsync, if_pos hm]

/-! ### Fields of a master (R222, R225) -/

/-- The number of the raster's next position in its field. -/
def State.place (s : State) : Nat := s.raster.vnext.toNat * s.geom.htc + s.raster.hnext.toNat

/-- The three levels are those of the position numbered `p` in a field of the geometry `g`. -/
def State.LevelsAt (s : State) (g : Geometry) (p : Nat) : Prop :=
  s.status .vsy = g.vsyncAt (p / g.htc) ∧ s.status .hbl = g.hblankAt (p % g.htc)
    ∧ s.raster.hsyncLevel = g.hsyncAt (p % g.htc)

/-- A position within `m` columns and `n` lines has a number below `m * n`. -/
theorem place_lt {h v m n : Nat} (hh : h < m) (hv : v < n) : v * m + h < m * n :=
  calc v * m + h < v * m + m := by omega
    _ = m * (v + 1) := by ring
    _ ≤ m * n := Nat.mul_le_mul_left m hv

/-- Counting positions modulo the field: along the line, to the next line, or to the next field. -/
theorem place_succ {h v m n : Nat} (hh : h < m) (hv : v < n) :
    (if h + 1 < m then v else if v + 1 < n then v + 1 else 0) * m + (if h + 1 < m then h + 1 else 0) =
      (v * m + h + 1) % (m * n) := by
  by_cases hline : h + 1 < m
  · rw [if_pos hline, if_pos hline, Nat.add_assoc, Nat.mod_eq_of_lt (place_lt hline hv)]
  obtain rfl : m = h + 1 := by omega
  have hnext : v * (h + 1) + h + 1 = (v + 1) * (h + 1) := by ring
  rw [if_neg hline, if_neg hline, hnext]
  by_cases hfield : v + 1 < n
  · rw [if_pos hfield, Nat.mod_eq_of_lt (by simpa using place_lt (Nat.succ_pos h) hfield), Nat.add_zero]
  · obtain rfl : n = v + 1 := by omega
    rw [if_neg hfield, Nat.mul_comm (h + 1), Nat.mod_self, Nat.zero_mul]

theorem State.place_lt {s : State} (hs : s.RasterOk) : s.place < s.geom.htc * s.geom.vtc := by
  obtain ⟨hh, hv, -⟩ := hs
  exact Machine.place_lt hh hv

/-- A master within its totals does not hold. -/
theorem State.RasterOk.runs {s : State} (hs : s.RasterOk) (hm : s.master = true) : s.raster.vwait = false := by
  obtain ⟨-, -, hold⟩ := hs
  by_contra hw
  obtain ⟨hslave, -⟩ := hold (by simpa using hw)
  simp [hm] at hslave

/-- A tick of a running raster enters the position it stood before, and shows its levels. -/
theorem State.levelsAt_tick {s : State} (hs : s.RasterOk) (hw : s.raster.vwait = false) :
    s.tick.LevelsAt s.geom s.place := by
  obtain ⟨hh, -, -⟩ := hs
  have hline : s.place / s.geom.htc = s.raster.vnext.toNat := by
    rw [State.place, Nat.mul_comm, Nat.mul_add_div s.geom.htc_pos, Nat.div_eq_of_lt hh, Nat.add_zero]
  have hcolumn : s.place % s.geom.htc = s.raster.hnext.toNat := by
    rw [State.place, Nat.mul_add_mod', Nat.mod_eq_of_lt hh]
  rw [State.LevelsAt, hline, hcolumn, State.tick_eq hw]
  exact ⟨s.statusGet_levelStatus _ _ .vsy, s.statusGet_levelStatus _ _ .hbl, Raster.successor_hsyncLevel _ _ _⟩

theorem State.place_tick {s : State} (hs : s.RasterOk) (hw : s.raster.vwait = false) (hg : s.geom.Ok) :
    s.tick.place = (s.place + 1) % (s.geom.htc * s.geom.vtc) := by
  obtain ⟨hh, hv, -⟩ := hs
  have hnext : s.rasterEntered.hnext.toNat = _ := Raster.successor_hnext _ _ _ (hg.htc_le.trans (by decide))
  have vnext : s.rasterEntered.vnext.toNat = _ := Raster.successor_vnext _ _ _
  rw [State.tick_eq hw, State.place, hnext, vnext]
  exact place_succ hh hv

/-- Every tick keeps the raster within the totals, and only a slave's comes to hold (R223, R229). -/
theorem State.RasterOk.tick {s : State} (hs : s.RasterOk) : s.tick.RasterOk := by
  cases hw : s.raster.vwait with
  | true => rwa [State.tick_held hw]
  | false =>
    obtain ⟨-, hv, -⟩ := hs
    rw [State.tick_eq hw]
    obtain ⟨hcolumn, hline⟩ : s.rasterEntered.hnext.toNat < _ ∧ s.rasterEntered.vnext.toNat < _ :=
      Raster.successor_inRange _ s.geom s.master hv
    exact ⟨hcolumn, hline, Raster.successor_holds _ _ _ hw⟩

/-- Ticks pending one after another are taken one after another. -/
theorem delivers_ticks (s : State) (k : Nat) : Delivers (List.replicate k .tick) s (State.tick^[k] s) := by
  induction k generalizing s with
  | zero => exact fun _ => rfl
  | succ k ih =>
    have first : Delivers [.tick] s s.tick := by
      intro fs
      have hstep := step_tick (s := s.withEvents (.tick :: fs)) rfl
      rw [ignoresEvents_tick] at hstep
      exact run_succ hstep
    exact first.append (ih s.tick)

section
variable {s : State} (k : Nat)

theorem State.geom_ticks : (State.tick^[k] s).geom = s.geom := iterate_keeps State.geom _ (by simp) k s

theorem State.master_ticks : (State.tick^[k] s).master = s.master := iterate_keeps State.master _ (by simp) k s

theorem State.RasterOk.ticks (hs : s.RasterOk) : (State.tick^[k] s).RasterOk :=
  Function.Iterate.rec State.RasterOk hs (fun _ => State.RasterOk.tick) k

/-- A master moves on by one position of its field a tick (R225). -/
theorem State.place_ticks (hm : s.master = true) (hs : s.RasterOk) (hg : s.geom.Ok) :
    (State.tick^[k] s).place = (s.place + k) % (s.geom.htc * s.geom.vtc) := by
  induction k with
  | zero => exact (Nat.mod_eq_of_lt (State.place_lt hs)).symm
  | succ k ih =>
    have ok : (State.tick^[k] s).RasterOk := hs.ticks k
    have geom : (State.tick^[k] s).geom = s.geom := State.geom_ticks k
    have runs := ok.runs ((State.master_ticks k).trans hm)
    rw [iterate_succ_last, State.place_tick ok runs (geom ▸ hg), geom, ih, Nat.mod_add_mod, Nat.add_assoc]

end

/-- Settles O50: the ticks are taken one by one, each moves the place on by one, and the last one entered the place
before the one reached. -/
theorem masterFieldIsPeriodic : Obligations.MasterFieldIsPeriodic := by
  intro k s rest hev hm hs hg
  have geom (j : Nat) : (State.tick^[j] s).geom = s.geom := State.geom_ticks j
  have runs (j : Nat) : (State.tick^[j] s).raster.vwait = false :=
    (hs.ticks j).runs ((State.master_ticks j).trans hm)
  have hrun := delivers_ticks s k rest
  rw [List.length_replicate, ← hev] at hrun
  refine ⟨(State.tick^[k] s).withEvents rest, hrun, rfl, geom k, runs k, ?_, fun hpos => ?_⟩
  · have hplace := State.place_ticks k hm hs hg
    rw [State.place, geom k] at hplace
    exact hplace
  · obtain ⟨j, rfl⟩ := Nat.exists_eq_succ_of_ne_zero (Nat.ne_of_gt hpos)
    have hlevels : (State.tick^[j] s).tick.LevelsAt _ _ := State.levelsAt_tick (hs.ticks j) (runs j)
    rw [← iterate_succ_last State.tick, geom j, State.place_ticks j hm hs hg] at hlevels
    exact hlevels

end Sys2Proof.Machine

/-! ## The raster, the registers that hold a value plus 1, and display memory (R21, R24, R25, R44, R223) -/

namespace Sys2Proof.Machine

/-- From `s` to `t` nothing that the three invariants speak of moved. -/
@[simp] def KeepsPicture (s t : State) : Prop :=
  t.geom = s.geom ∧ t.raster = s.raster ∧ t.master = s.master ∧ t.cursor = s.cursor ∧ t.zoom = s.zoom ∧ t.mem = s.mem
    ∧ t.cfg = s.cfg

theorem Booked.keepsPicture {s u : State} (h : Booked s u) : KeepsPicture s u := by
  obtain ⟨d, l, rfl, -⟩ := h
  exact ⟨rfl, rfl, rfl, rfl, rfl, rfl, rfl⟩

/-- What is kept where nothing of the picture moves, and by every effect of a command, a tick, an external vsync and
another agent's store, every step keeps: the FIFO's operations and the other events move nothing of it (R8,
R80 to R88). -/
theorem step_keeps {P : State → Prop} (hquiet : ∀ u v, KeepsPicture u v → P u → P v)
    (heffect : ∀ i u, P u → ∀ apply ∈ effectsOf i, P (apply u)) (htick : ∀ u, P u → P u.tick)
    (hvsync : ∀ u, P u → P u.extVsync) (hstore : ∀ u a v, P u → P (u.memWrite a v))
    {s t : State} (hs : P s) (h : step s = .next t) : P t := by
  obtain ⟨-, rfl⟩ | ⟨e, rest, -, h⟩ := step_cases h
  · exact hs
  have taken : P { s with events := rest } := hquiet s _ (by simp) hs
  have dispatched (e : FifoEntry) (u v : State) (hu : P u) (h : dispatchEntry e u = .next v) : P v :=
    (dispatchEntry_dispatches h).keeps (fun u v hb => hquiet u v hb.keepsPicture) heffect hu
  have accepted {b : Byte} {c : Bool} (h : acceptByte b c { s with events := rest } = .next t) : P t :=
    acceptByte_keeps (fun u d => hquiet u _ (by simp)) (fun u b c => hquiet u _ (by simp))
      (fun u e q _ => hquiet u _ (by simp)) dispatched taken h
  cases e with
  | portWrite offset b =>
    simp only [handleEvent, portWrite] at h
    split at h
    · exact accepted h
    · exact accepted h
    · cases h
      exact hquiet _ _ (by simp) taken
  | portRead offset =>
    cases h
    refine hquiet _ _ ?_ taken
    unfold portRead
    split <;> simp
  | tick => cases h; exact htick _ taken
  | extVsync => cases h; exact hvsync _ taken
  | memStore a v => cases h; exact hstore _ a v taken
  | renderLine y | renderFrame | lightPen a | dmaEnd => cases h; exact hquiet _ _ (by simp) taken

/-! ### The raster (R223, R228, R229) -/

theorem State.RasterOk.congr {s t : State} (hs : s.RasterOk) (hg : t.geom = s.geom) (hr : t.raster = s.raster)
    (hm : t.master = s.master) : t.RasterOk := by
  simpa only [State.RasterOk, hg, hr, hm] using hs

/-- A raster that starts a field is within the totals of any geometry (R222, R228). -/
theorem State.rasterOk_rearm (s : State) : s.rearm.RasterOk := ⟨s.geom.htc_pos, s.geom.vtc_pos, nofun⟩

/-- A controller made slave goes on from where it is; made master it no longer holds (R114). -/
theorem State.RasterOk.applyVsync {s : State} (hs : s.RasterOk) (f : Bool) : (s.applyVsync f).RasterOk := by
  obtain ⟨hh, hv, hold⟩ := hs
  cases f with
  | false =>
    refine ⟨hh, hv, fun hw => ?_⟩
    obtain ⟨-, hplace⟩ := hold hw
    exact ⟨rfl, hplace⟩
  | true => exact ⟨hh, hv, nofun⟩

theorem State.RasterOk.extVsync {s : State} (hs : s.RasterOk) : s.extVsync.RasterOk := by
  unfold State.extVsync
  split
  · exact hs
  · exact s.rasterOk_rearm

theorem effect_keeps_rasterOk (i : Instr) {s : State} (hs : s.RasterOk) :
    ∀ apply ∈ effectsOf i, (apply s).RasterOk := by
  have kept {u : State} (hg : u.geom = s.geom) (hr : u.raster = s.raster) (hm : u.master = s.master) : u.RasterOk :=
    hs.congr hg hr hm
  cases i with
  | sync f => exact List.forall_mem_singleton.mpr (State.rasterOk_rearm _)
  | reset =>
    exact List.forall_mem_cons.mpr ⟨kept (by simp) (by simp) (by simp),
      List.forall_mem_singleton.mpr (State.rasterOk_rearm _)⟩
  | vsync f => exact List.forall_mem_singleton.mpr (hs.applyVsync f)
  | pram _ | wdat _ _ =>
    exact List.forall_mem_cons.mpr ⟨kept (by simp) (by simp) (by simp),
      List.forall_mem_singleton.mpr (kept (by simp) (by simp) (by simp))⟩
  | _ => exact List.forall_mem_singleton.mpr (kept (by simp) (by simp) (by simp))

/-! ### The registers that hold a value plus 1 (R21, R24, R25) -/

theorem State.RegsOk.congr {s t : State} (hs : s.RegsOk) (hg : t.geom = s.geom) (hc : t.cursor = s.cursor)
    (hz : t.zoom = s.zoom) : t.RegsOk := by
  simpa only [State.RegsOk, hg, hc, hz] using hs

/-- The layout of SYNC leaves every field in its range (R21, R112). -/
theorem syncDecode_ok (pr : List Byte) : (syncDecode pr).Ok := by
  have h2 := (prGet pr 2#4).isLt
  have h4 := (prGet pr 4#4).isLt
  right
  rw [syncDecode_aw, syncDecode_hs, syncDecode_hfp, syncDecode_hbp]
  omega

theorem State.RegsOk.applySync {s : State} (hs : s.RegsOk) (f : Bool) : (s.applySync f).RegsOk := by
  obtain ⟨-, hplus⟩ := hs
  rw [State.applySync_eq]
  exact ⟨syncDecode_ok _, hplus⟩

theorem State.RegsOk.applyCchar {s : State} (hs : s.RegsOk) : s.applyCchar.RegsOk := by
  obtain ⟨hg, -, hz⟩ := hs
  refine ⟨hg, ?_, hz⟩
  show 1 ≤ (ccharDecode s.disp.pr).lr.toNat ∧ (ccharDecode s.disp.pr).lr.toNat ≤ 32
  rw [ccharDecode_lr]
  omega

theorem State.RegsOk.applyZoom {s : State} (hs : s.RegsOk) : s.applyZoom.RegsOk := by
  obtain ⟨hg, hc, -⟩ := hs
  have hp := (s.disp.par 1#4).isLt
  refine ⟨hg, hc, ?_⟩
  show (1 ≤ (zoomDecode (s.disp.par 1#4)).disp.toNat ∧ (zoomDecode (s.disp.par 1#4)).disp.toNat ≤ 16)
    ∧ 1 ≤ (zoomDecode (s.disp.par 1#4)).gchr.toNat ∧ (zoomDecode (s.disp.par 1#4)).gchr.toNat ≤ 16
  rw [zoomDecode_disp, zoomDecode_gchr]
  omega

theorem effect_keeps_regsOk (i : Instr) {s : State} (hs : s.RegsOk) : ∀ apply ∈ effectsOf i, (apply s).RegsOk := by
  have kept {u : State} (hg : u.geom = s.geom) (hc : u.cursor = s.cursor) (hz : u.zoom = s.zoom) : u.RegsOk :=
    hs.congr hg hc hz
  cases i with
  | sync f => exact List.forall_mem_singleton.mpr (hs.applySync f)
  | reset =>
    exact List.forall_mem_cons.mpr ⟨kept (by simp) (by simp) (by simp),
      List.forall_mem_singleton.mpr (hs.applySync false)⟩
  | cchar => exact List.forall_mem_singleton.mpr hs.applyCchar
  | zoom => exact List.forall_mem_singleton.mpr hs.applyZoom
  | pram _ | wdat _ _ =>
    exact List.forall_mem_cons.mpr ⟨kept (by simp) (by simp) (by simp),
      List.forall_mem_singleton.mpr (kept (by simp) (by simp) (by simp))⟩
  | _ => exact List.forall_mem_singleton.mpr (kept (by simp) (by simp) (by simp))

/-! ### Display memory (R44, R45) -/

theorem State.MemOk.congr {s t : State} (hs : s.MemOk) (hm : t.mem = s.mem) (hc : t.cfg = s.cfg) : t.MemOk := by
  simpa only [State.MemOk, hm, hc] using hs

/-- A `MemWrite` keeps the canonical form and the size (R44, R45). -/
theorem State.MemOk.memWrite {s : State} (hs : s.MemOk) (a : VAddr) (w : Word) : (s.memWrite a w).MemOk := by
  obtain ⟨hwf, hbelow⟩ := hs
  exact ⟨Memory.wf_writeWord hwf _ w, State.below_memWrite hbelow a w⟩

theorem State.MemOk.memAfter {s : State} (hs : s.MemOk) (ws : List (VAddr × Word)) :
    State.MemOk { s with mem := s.memAfter ws } :=
  List.foldlRecOn (motive := fun m => State.MemOk { s with mem := m }) ws _ hs
    fun m hm w _ => State.MemOk.memWrite (s := { s with mem := m }) hm w.1 w.2

/-- A read-modify-write is one `MemWrite` (R155, R162). -/
theorem State.MemOk.plot {s : State} (hs : s.MemOk) (data lane : Word) (d : BitVec 3) : (s.plot data lane d).MemOk :=
  (hs.memWrite s.addr.ead _).congr rfl rfl

/-- Any number of writes of the same data: a transfer's (R155) or a dot's (R162). -/
theorem State.MemOk.plotN {s : State} (hs : s.MemOk) (data lane : Word) (n : Nat) : (s.plotN data lane n).MemOk :=
  Function.Iterate.rec State.MemOk hs (fun u hu => hu.plot data lane u.fig.dir) n

theorem State.MemOk.drawRow {s : State} (hs : s.MemOk) (pat : Byte) (z : Nat) : (s.drawRow pat z).MemOk := by
  have dots : (s.drawDots pat z).MemOk :=
    List.foldlRecOn (motive := State.MemOk) _ _ hs
      fun _ hu b _ => hu.plotN (if pat.getLsbD b then 0xFFFF#16 else 0#16) 0xFFFF#16 z
  exact dots.congr rfl rfl

theorem State.MemOk.applyGchrd {s : State} (hs : s.MemOk) : s.applyGchrd.MemOk :=
  List.foldlRecOn (motive := State.MemOk) _ _ hs fun u hu r _ =>
    Function.Iterate.rec State.MemOk hu
      (fun _ hv => hv.drawRow (bankGet u.ra (BitVec.ofNat 4 (15 - r))) u.zoom.gchr.toNat) u.zoom.gchr.toNat

theorem State.MemOk.applyWdat {s : State} (hs : s.MemOk) : s.applyWdat.MemOk := by
  unfold State.applyWdat
  split
  · exact hs
  · exact (hs.plotN _ _ _).congr rfl rfl

/-- Whatever FIGD leaves in display memory it leaves by `MemWrite`s (R160, log 8). -/
theorem State.MemOk.applyFigd {s : State} (hs : s.MemOk) : s.applyFigd.MemOk := by
  unfold State.applyFigd
  split
  · exact hs
  · exact (State.MemOk.memAfter (s := s.raiseLog .unspecifiedFigd 0x6C#8) hs _).congr rfl rfl

theorem effect_keeps_memOk (i : Instr) {s : State} (hs : s.MemOk) : ∀ apply ∈ effectsOf i, (apply s).MemOk := by
  cases i with
  | wdat x m =>
    exact List.forall_mem_cons.mpr ⟨hs.congr (by simp) (by simp), List.forall_mem_singleton.mpr hs.applyWdat⟩
  | figd => exact List.forall_mem_singleton.mpr hs.applyFigd
  | gchrd => exact List.forall_mem_singleton.mpr hs.applyGchrd
  | reset | pram _ =>
    exact List.forall_mem_cons.mpr ⟨hs.congr (by simp) (by simp),
      List.forall_mem_singleton.mpr (hs.congr (by simp) (by simp))⟩
  | _ => exact List.forall_mem_singleton.mpr (hs.congr (by simp) (by simp))

/-- Settles O54: each invariant speaks of its part of the picture, and every effect and event that moves the part keeps
it. -/
theorem stepKeepsRasterRegistersAndMemory : Obligations.StepKeepsRasterRegistersAndMemory := by
  intro s t h
  refine ⟨fun hs => ?_, fun hs => ?_, fun hs => ?_⟩
  · exact step_keeps (P := State.RasterOk) (fun _ _ ⟨hg, hr, hm, _⟩ hu => hu.congr hg hr hm)
      (fun i _ hu => effect_keeps_rasterOk i hu) (fun _ hu => hu.tick) (fun _ hu => hu.extVsync)
      (fun _ _ _ hu => hu.congr rfl rfl rfl) hs h
  · exact step_keeps (P := State.RegsOk) (fun _ _ ⟨hg, _, _, hc, hz, _⟩ hu => hu.congr hg hc hz)
      (fun i _ hu => effect_keeps_regsOk i hu) (fun _ hu => hu.congr (by simp) (by simp) (by simp))
      (fun _ hu => hu.congr (by simp) (by simp) (by simp)) (fun _ _ _ hu => hu.congr rfl rfl rfl) hs h
  · exact step_keeps (P := State.MemOk) (fun _ _ ⟨_, _, _, _, _, hm, hc⟩ hu => hu.congr hm hc)
      (fun i _ hu => effect_keeps_memOk i hu) (fun _ hu => hu.congr (by simp) (by simp))
      (fun _ hu => hu.congr (by simp) (by simp)) (fun _ a v hu => hu.memWrite a v) hs h

end Sys2Proof.Machine

/-! ## The output lines (R157, R165 to R167, R226, R256) -/

namespace Sys2Proof.Machine

/-! ### The levels a line was driven to -/

theorem alternatesFrom_append_singleton (b l : Bool) (ls : List Bool) :
    alternatesFrom b (ls ++ [l]) = (alternatesFrom b ls && (l != ls.getLastD b)) := by
  induction ls generalizing b with
  | nil => simp [alternatesFrom]
  | cons x xs ih => rw [List.cons_append, alternatesFrom, alternatesFrom, ih, List.getLastD_cons, Bool.and_assoc]

@[simp] theorem levelsOf_append (ls ms : List LineEvent) (n : LineName) :
    levelsOf (ls ++ ms) n = levelsOf ls n ++ levelsOf ms n := by
  simp [levelsOf]

/-- The level a line is driven to when it is at `old` and is to be at `new`, if it changes (R256). -/
def levelChange (old new : Bool) : List Bool := if new ≠ old then [new] else []

/-- A line event drives its own line only. -/
@[simp] theorem levelsOf_lineChange (m n : LineName) (old new : Bool) :
    levelsOf (lineChange m old new) n = if m = n then levelChange old new else [] := by
  unfold lineChange levelChange
  by_cases hn : m = n <;> by_cases hl : new = old <;> simp [levelsOf, hn, hl]

/-- A line driven on from its level, if that changes, alternates still and stands at the new level. -/
theorem lineFollows_of_levelChange {ls ms : List LineEvent} {n : LineName} {old new : Bool} (h : lineFollows ls n old)
    (hms : levelsOf ms n = levelsOf ls n ++ levelChange old new) : lineFollows ms n new := by
  obtain ⟨halt, hlast⟩ := h
  unfold lineFollows
  rw [hms, levelChange]
  split
  next hne =>
    rw [alternatesFrom_append_singleton, halt, hlast]
    exact ⟨by simpa using hne, by simp⟩
  next heq => exact ⟨by simpa using halt, by simpa [not_not.mp heq] using hlast⟩

/-- A line that was not driven follows its level as before. -/
theorem lineFollows_congr {ls ms : List LineEvent} {n : LineName} {level : Bool} (h : lineFollows ls n level)
    (hms : levelsOf ms n = levelsOf ls n) : lineFollows ms n level := by
  simpa only [lineFollows, hms] using h

/-! ### Where no level moves -/

/-- The fields that `State.LinesOk` compares the lines with. -/
def lineFields : List StateField := [.vsy, .hbl, .hsync, .drq, .dma, .dip]

/-- From `s` to `t` no line was driven and no level moved. -/
structure KeepsLevels (s t : State) : Prop where
  lines : t.out.lines = s.out.lines
  field : ∀ f ∈ lineFields, f.Kept s t

theorem KeepsLevels.linesOk {s t : State} (h : KeepsLevels s t) (hs : s.LinesOk) : t.LinesOk := by
  obtain ⟨hlines, hfield⟩ := h
  simp only [lineFields, List.forall_mem_cons, StateField.Kept] at hfield
  obtain ⟨hvsy, hhbl, hhsync, hdrq, hdma, hdip, -⟩ := hfield
  simpa only [State.LinesOk, hlines, hvsy, hhbl, hhsync, hdrq, hdma, hdip] using hs

/-- Of the commands only DMAR and DMAW write a field of the lines. -/
theorem not_mem_writers_of_lineFields {f : StateField} (hf : f ∈ lineFields) {name : Mnemonic} (hr : name ≠ .dmar)
    (hw : name ≠ .dmaw) : name ∉ f.writers := by
  simp only [lineFields, List.mem_cons, List.not_mem_nil, or_false] at hf
  rcases hf with rfl | rfl | rfl | rfl | rfl | rfl <;> simp [StateField.writers, hr, hw]

/-- Of the events that are no port write only a tick and the end of a transfer move a field of the lines. -/
theorem not_movedBy_of_lineFields {f : StateField} (hf : f ∈ lineFields) {e : Event} (ht : e ≠ .tick)
    (hd : e ≠ .dmaEnd) : ¬ f.MovedBy e := by
  simp only [lineFields, List.mem_cons, List.not_mem_nil, or_false] at hf
  rcases hf with rfl | rfl | rfl | rfl | rfl | rfl <;> simp [StateField.MovedBy, ht, hd]

theorem Booked.keepsLevels {s u : State} (h : Booked s u) : KeepsLevels s u := by
  refine ⟨?_, fun f _ => h.kept f⟩
  obtain ⟨d, l, rfl, -⟩ := h
  rfl

/-- What leaves the streams' lines, the raster and DRQ, and moves only the FIFO's status bits, moves no level. -/
theorem KeepsLevels.of_fifo {s t : State} (hl : t.out.lines = s.out.lines) (hr : t.raster = s.raster)
    (hq : t.drq = s.drq) (hb : ∀ b, b ≠ .fe → b ≠ .ff → b ≠ .dr → t.status b = s.status b) : KeepsLevels s t := by
  refine ⟨hl, ?_⟩
  simp [lineFields, StateField.Kept, hr, hq, hb]

theorem keepsLevels_setDirection (s : State) (d : FifoDir) : KeepsLevels s (s.setDirection d) :=
  .of_fifo (by simp) (by simp) (by simp) (s.status_setDirection_other d)

theorem keepsLevels_enqueue (s : State) (b : Byte) (c : Bool) : KeepsLevels s (s.enqueue b c) := by
  obtain ⟨hlines, -⟩ := s.enqueue_outputs b c
  exact .of_fifo hlines (by simp) (by simp) (s.status_enqueue_other b c)

theorem keepsLevels_dequeue (s : State) (q : List FifoEntry) :
    KeepsLevels s { s with fifo := q, sr := statusAfterDequeue s.sr q.length } :=
  .of_fifo rfl rfl rfl (status_afterDequeue_other s.sr q.length)

/-! ### Where no line is driven -/

theorem State.readBack_lines (s : State) (bs : List Byte) :
    ((s.setDirection .read).enqueueResults bs).out.lines = s.out.lines := by
  obtain ⟨hlines, -⟩ := (s.setDirection .read).enqueueResults_outputs bs
  simpa using hlines

theorem State.applyRdat_lines (s : State) (x : XferType) (m : ModMode) :
    (s.applyRdat x m).out.lines = s.out.lines := by
  unfold State.applyRdat
  dsimp only
  split
  · simp
  · rw [State.readOutN_eq]
    exact (s.latchXfer x m).readBack_lines _

theorem State.startWdat_lines (s : State) (x : XferType) (m : ModMode) :
    (s.startWdat x m).out.lines = s.out.lines := by
  unfold State.startWdat
  split <;> rfl

theorem State.applySync_lines (s : State) (f : Bool) : (s.applySync f).out.lines = s.out.lines := by
  have clamped (u : State) : u.logClamp.out.lines = u.out.lines := by
    unfold State.logClamp
    split <;> rfl
  exact clamped _

theorem State.applyFigd_lines (s : State) : s.applyFigd.out.lines = s.out.lines := by
  unfold State.applyFigd
  split <;> rfl

/-- No command but DMAR and DMAW drives a line. -/
theorem effect_lines {i : Instr} (hr : i.mnemonic ≠ .dmar) (hw : i.mnemonic ≠ .dmaw) (s : State) :
    ∀ apply ∈ effectsOf i, (apply s).out.lines = s.out.lines := by
  cases i with
  | dmar x m => exact absurd rfl hr
  | dmaw x m => exact absurd rfl hw
  | reset =>
    exact List.forall_mem_cons.mpr ⟨rfl, List.forall_mem_singleton.mpr (s.applySync_lines false)⟩
  | sync f => exact List.forall_mem_singleton.mpr (s.applySync_lines f)
  | pram n => exact List.forall_mem_cons.mpr ⟨rfl, List.forall_mem_singleton.mpr (by simp)⟩
  | wdat x m =>
    exact List.forall_mem_cons.mpr ⟨s.startWdat_lines x m, List.forall_mem_singleton.mpr (by simp)⟩
  | rdat x m => exact List.forall_mem_singleton.mpr (s.applyRdat_lines x m)
  | figd => exact List.forall_mem_singleton.mpr s.applyFigd_lines
  | curd | lprd => exact List.forall_mem_singleton.mpr (s.readBack_lines _)
  | _ => exact List.forall_mem_singleton.mpr (by simp)

theorem State.openBusRead_lines (s : State) : s.openBusRead.out.lines = s.out.lines := by
  unfold State.openBusRead
  split <;> rfl

theorem portRead_lines (s : State) (offset : Nat) : (portRead offset s).out.lines = s.out.lines := by
  unfold portRead
  split
  · rfl
  · unfold State.dataRead
    split
    next e u _ hq =>
      obtain ⟨q, -, rfl⟩ := State.dequeue_some hq
      rfl
    next => exact s.openBusRead_lines

/-- No event but a port write, a tick and the end of a transfer drives a line. -/
theorem event_lines {e : Event} {s t : State} (hw : ∀ offset b, e ≠ .portWrite offset b) (ht : e ≠ .tick)
    (hd : e ≠ .dmaEnd) (h : handleEvent e s = .next t) : t.out.lines = s.out.lines := by
  cases e with
  | portWrite offset b => exact absurd rfl (hw offset b)
  | tick => exact absurd rfl ht
  | dmaEnd => exact absurd rfl hd
  | portRead offset => cases h; exact portRead_lines s offset
  | renderLine y | renderFrame => cases h; rfl
  | extVsync | lightPen a | memStore a v => cases h; simp

/-! ### DRQ (R165 to R167) -/

/-- DRQ and DMA-execute brought to a level together, with a callback if it changes. -/
def State.setDma (s : State) (v : Bool) : State :=
  { s with
    sr := statusPut s.sr .dma v, drq := v
    out := { s.out with lines := s.out.lines ++ lineChange .drq s.drq v } }

theorem State.applyDma_eq (s : State) (x : XferType) (m : ModMode) :
    s.applyDma x m = (s.latchXfer x m).setDma true := by
  have hchange : (if s.drq then [] else [⟨.drq, true⟩]) = lineChange .drq s.drq true := by
    cases s.drq <;> rfl
  rw [State.applyDma, State.raiseDrq_eq, State.setDma, State.latchXfer_drq, ← hchange]
  rfl

theorem State.dmaEnd_eq_setDma (s : State) : s.dmaEnd = s.setDma false := by
  have hchange : (if s.drq then [⟨.drq, false⟩] else []) = lineChange .drq s.drq false := by
    cases s.drq <;> rfl
  rw [State.dmaEnd_eq, hchange]
  rfl

theorem State.LinesOk.setDma {s : State} (hs : s.LinesOk) (v : Bool) : (s.setDma v).LinesOk := by
  obtain ⟨hvsync, hhsync, hblank, hdrq, hint, -, hdip⟩ := hs
  have other (b : StatusBit) (hb : b ≠ .dma) : (s.setDma v).status b = s.status b := statusGet_put_ne s.sr v hb
  have levels (n : LineName) :
      levelsOf (s.setDma v).out.lines n = levelsOf s.out.lines n ++ if .drq = n then levelChange s.drq v else [] := by
    simp [State.setDma]
  refine ⟨?_, lineFollows_congr hhsync (by simp [levels]), ?_, lineFollows_of_levelChange hdrq (by simp [levels]; rfl),
    by simpa [levels] using hint, statusGet_put_self s.sr .dma v, (other .dip (by decide)).trans hdip⟩
  · rw [other .vsy (by decide)]
    exact lineFollows_congr hvsync (by simp [levels])
  · rw [other .hbl (by decide)]
    exact lineFollows_congr hblank (by simp [levels])

/-! ### The tick (R224, R226) -/

/-- A tick drives each of its three lines on from the level it stands at, and no other line. -/
theorem State.LinesOk.tick {s : State} (hs : s.LinesOk) : s.tick.LinesOk := by
  cases hw : s.raster.vwait with
  | true => rwa [State.tick_held hw]
  | false =>
    obtain ⟨hvsync, hhsync, hblank, hdrq, hint, hdma, hdip⟩ := hs
    rw [State.tick_eq hw]
    simp only [State.LinesOk, State.status, State.statusGet_levelStatus, State.rasterEntered,
      Raster.successor_hsyncLevel]
    refine ⟨lineFollows_of_levelChange hvsync ?_, lineFollows_of_levelChange hhsync ?_,
      lineFollows_of_levelChange hblank ?_, lineFollows_congr hdrq ?_, ?_, hdma, hdip⟩ <;>
      simp [State.levelEvents, hint]

/-! ### Steps -/

theorem effect_keeps_linesOk (i : Instr) {s : State} (hs : s.LinesOk) :
    ∀ apply ∈ effectsOf i, (apply s).LinesOk := by
  have requested (x : XferType) (m : ModMode) : (s.applyDma x m).LinesOk := by
    rw [State.applyDma_eq]
    exact State.LinesOk.setDma (s := s.latchXfer x m) hs true
  have quiet (hr : i.mnemonic ≠ .dmar) (hw : i.mnemonic ≠ .dmaw) : ∀ apply ∈ effectsOf i, (apply s).LinesOk :=
    fun apply ha => KeepsLevels.linesOk
      ⟨effect_lines hr hw s apply ha,
        fun f hf => effect_keeps_field (not_mem_writers_of_lineFields hf hr hw) s apply ha⟩ hs
  cases i with
  | dmar x m | dmaw x m => exact List.forall_mem_singleton.mpr (requested x m)
  | _ => exact quiet nofun nofun

theorem portWrite_keeps_linesOk {offset : Nat} {b : Byte} {s t : State} (hs : s.LinesOk)
    (h : portWrite offset b s = .next t) : t.LinesOk := by
  have accepted {c : Bool} (h : acceptByte b c s = .next t) : t.LinesOk :=
    acceptByte_keeps (P := State.LinesOk) (fun u d => (keepsLevels_setDirection u d).linesOk)
      (fun u b c => (keepsLevels_enqueue u b c).linesOk) (fun u _ q _ => (keepsLevels_dequeue u q).linesOk)
      (fun _ _ _ hu hd => (dispatchEntry_dispatches hd).keeps (fun _ _ hb => hb.keepsLevels.linesOk)
        (fun i _ hv => effect_keeps_linesOk i hv) hu)
      hs h
  unfold portWrite at h
  split at h
  · exact accepted h
  · exact accepted h
  · cases h
    exact hs

/-- Settles O55: of the events and effects only a tick, the DMA commands and the end of a transfer move a level that a
line stands at, and each drives the line on from there. -/
theorem stepKeepsLines : Obligations.StepKeepsLines := by
  intro s t hs h
  obtain ⟨-, rfl⟩ | ⟨e, rest, -, h⟩ := step_cases h
  · exact hs
  have taken : State.LinesOk { s with events := rest } := hs
  have quiet (hw : ∀ offset b, e ≠ .portWrite offset b) (ht : e ≠ .tick) (hd : e ≠ .dmaEnd) : t.LinesOk :=
    KeepsLevels.linesOk
      ⟨event_lines hw ht hd h, fun f hf => event_keeps_field (not_movedBy_of_lineFields hf ht hd) hw h⟩ taken
  cases e with
  | portWrite offset b => exact portWrite_keeps_linesOk taken h
  | tick => cases h; exact taken.tick
  | dmaEnd =>
    cases h
    rw [State.dmaEnd_eq_setDma]
    exact taken.setDma false
  | _ => exact quiet nofun nofun nofun

end Sys2Proof.Machine

/-! ## Runs (R255, R284) -/

namespace Sys2Proof.Machine

/-- Settles O56, by induction on the length of the run: every step answers a next state. -/
theorem everyRunGoesOn : Obligations.EveryRunGoesOn := by
  intro k
  induction k with
  | zero => exact fun s => ⟨s, run_zero s⟩
  | succ k ih =>
    intro s
    obtain ⟨u, hu⟩ := step_total s
    rw [run_succ hu]
    exact ih u

end Sys2Proof.Machine

/-! ## Unread results (R82, R85, R286) -/

namespace Sys2Proof.Machine

/-- A byte written in READ direction is taken as by the cleared queue in WRITE direction. -/
theorem acceptByte_of_read {s : State} (h : s.fifoDir = .read) (b : Byte) (c : Bool) :
    acceptByte b c s = acceptByte b c s.emptied := by
  have turned : s.setDirection .write = s.emptied := State.setDirection_switch (by simp [h])
  have settled : s.emptied.setDirection .write = s.emptied := State.setDirection_same rfl
  rw [acceptByte, acceptByte, turned, settled]

theorem portWrite_of_read {offset : Nat} {s : State} (hport : writePortAt s.cfg.portMap offset ≠ .ignored)
    (h : s.fifoDir = .read) (b : Byte) : portWrite offset b s = portWrite offset b s.emptied := by
  have hmap : s.emptied.cfg = s.cfg := rfl
  unfold portWrite
  rw [hmap]
  split
  · exact acceptByte_of_read h b false
  · exact acceptByte_of_read h b true
  next hignored => exact absurd hignored hport

/-- Settles O11: the direction switch of the write clears the queue, and does nothing where that is already done. -/
theorem writeDiscardsUnreadResults : Obligations.WriteDiscardsUnreadResults := by
  intro s offset b rest hev hport hdir
  refine ⟨statusCleared s.sr, ?_, ?_, ?_, ?_, fun x hfe hff hdr => ?_⟩
  · calc step s
        = portWrite offset b { s with events := rest } := step_cons hev
      _ = portWrite offset b (State.emptied { s with events := rest }) :=
          portWrite_of_read (s := { s with events := rest }) hport hdir b
      _ = step s.emptied := (step_cons (s := s.emptied) hev).symm
  · simp [statusGet_cleared]
  · simp [statusGet_cleared]
  · simp [statusGet_cleared]
  · cases x <;> simp_all [statusGet_cleared, State.status]

end Sys2Proof.Machine
